-- ==== Sys2Proof/Word.lean ====
section
/-! DEFINITION. The machine's value types: the 32-bit register word and the byte (spec/00_scope.md R6, R7). -/

namespace Sys2Proof

/-- A register word: 32 bits, unsigned (R7, decision D2). -/
abbrev Word := BitVec 32

/-- A byte, 0 to 255 (R7). -/
abbrev Byte := BitVec 8

end Sys2Proof
end

