-- ==== Sys2Proof/Syntax.lean ====
section
/-! DEFINITION. The six commands of spec/30_encoding.md R91, one constructor per row of the opcode table. -/

namespace Sys2Proof

/-- The commands.  They carry no operand of their own (R93): SRC_LEN, SRC, DST_LIMIT and the CFG registers
are read implicitly. -/
inductive Instr where
  /-- ENCODE, OPC 0x01 (R121). -/
  | encode
  /-- DECODE, OPC 0x02 (R123). -/
  | decode
  /-- CHECKSUM, OPC 0x03 (R151). -/
  | checksum
  /-- ENCODE_FRAME, OPC 0x04 (R161). -/
  | encodeFrame
  /-- DECODE_FRAME, OPC 0x05 (R164). -/
  | decodeFrame
  /-- EXCHANGE, OPC 0x06 (R180). -/
  | exchange
  deriving DecidableEq, Repr

end Sys2Proof
end

