-- ==== Sys2Proof/WellFormed.lean ====
section
/-! DEFINITION. Well-formedness of a command and of a command word (spec/30_encoding.md R90 to R93). -/

namespace Sys2Proof

/-- A command has no immediate and no register number (R93), so no term of `Instr` is ill-formed. -/
def Instr.wellFormed : Instr → Bool
  | .encode => true
  | .decode => true
  | .checksum => true
  | .encodeFrame => true
  | .decodeFrame => true
  | .exchange => true

/-- The check on RSVD, bits[31:8]: all zero (R90). -/
def reservedClear (w : Word) : Bool := w.extractLsb' 8 24 == 0

/-- The check on OPC, bits[7:0]: one of the six of R91. -/
def opcodeAssigned (w : Word) : Bool :=
  1 ≤ (w.extractLsb' 0 8).toNat && (w.extractLsb' 0 8).toNat ≤ 6

/-- A command word is well-formed when it selects a command; every other word is illegal (R92). -/
def wordWellFormed (w : Word) : Bool := reservedClear w && opcodeAssigned w

end Sys2Proof
end

