-- ==== Sys2Proof/Decode.lean ====
section
/-! DEFINITION. The command-word decoder, total and rejecting by name, and the encoder
(spec/30_encoding.md R90 to R92). -/

namespace Sys2Proof

/-- Why a word selects no command (R92). -/
inductive DecodeError where
  /-- RSVD, bits[31:8], is not zero. -/
  | reservedBits
  /-- OPC is 0x00 or 0x07 to 0xFF. -/
  | unassignedOpcode
  deriving DecidableEq, Repr

/-- The OPC field, bits[7:0] (R90). -/
def opcField (w : Word) : Byte := w.extractLsb' 0 8

/-- The RSVD field, bits[31:8] (R90). -/
def rsvdField (w : Word) : BitVec 24 := w.extractLsb' 8 24

/-- The opcode map of R91 on a word with RSVD = 0. -/
def decodeOpcode (opc : Byte) : Except DecodeError Instr :=
  match opc.toNat with
  | 1 => .ok .encode
  | 2 => .ok .decode
  | 3 => .ok .checksum
  | 4 => .ok .encodeFrame
  | 5 => .ok .decodeFrame
  | 6 => .ok .exchange
  | _ => .error .unassignedOpcode

/-- The decoder of command words: total (R92). -/
def decode (w : Word) : Except DecodeError Instr :=
  if rsvdField w = 0 then decodeOpcode (opcField w) else .error .reservedBits

/-- The OPC of a command (R91). -/
def opcodeOf : Instr → Byte
  | .encode => 0x01
  | .decode => 0x02
  | .checksum => 0x03
  | .encodeFrame => 0x04
  | .decodeFrame => 0x05
  | .exchange => 0x06

/-- The word of a command: `zext_32(OPC)` (R91). -/
def encode (i : Instr) : Word := (opcodeOf i).setWidth 32

/-- The decoder on a word of the opcode table, which gives every row one 32-bit word moved whole (R61, R68). -/
def decodeTableWord (nbits w : Nat) : Option Instr :=
  if nbits ≤ 32 ∧ w < 2 ^ nbits then
    match decode (BitVec.ofNat 32 w) with
    | .ok i => some i
    | .error _ => none
  else none

end Sys2Proof
end

