-- ==== Sys2Proof/Config.lean ====
section
/-! DEFINITION. What an implementation fixes (spec/00_scope.md R6) and the free values the spec leaves open. -/

namespace Sys2Proof

/-- The implementation parameters of R6.  An error value of the transport is named by its index in
`xerr`, and `xerr` is the table of the open map P_XERR (R233). -/
structure Params where
  /-- P_SRC_CAP: bytes in SRC. -/
  srcCap : Nat
  /-- P_DST_CAP: bytes in DST. -/
  dstCap : Nat
  /-- P_RX_CAP: bytes the accumulation buffer holds before the sentinel. -/
  rxCap : Nat
  /-- P_RD_CHUNK: the most bytes one transport read delivers. -/
  rdChunk : Nat
  /-- P_XERR as a table: entry `e` is the XERR word of transport error `e`. -/
  xerr : List Word
  deriving DecidableEq, Repr, Inhabited

/-- The constraints of R6 and R233 on the parameters. -/
def Params.valid (p : Params) : Bool :=
  decide (1 ≤ p.srcCap ∧ p.srcCap ≤ 2 ^ 32 - 1) &&
  decide (1 ≤ p.rxCap ∧ p.rxCap ≤ 2 ^ 32 - 1) &&
  decide (1 ≤ p.rdChunk) &&
  decide (p.srcCap + 2 + (p.srcCap + 2) / 254 + 1 ≤ p.dstCap ∧ p.rxCap ≤ p.dstCap ∧ 2 ≤ p.dstCap ∧
    p.dstCap ≤ 2 ^ 32 - 1) &&
  decide (p.xerr.Nodup ∧ (0 : Word) ∉ p.xerr)

namespace Config

/-- The parameters of the implementation at hand: open (R6), so a constant with no body. -/
opaque freeParams : Params

/-- A legal set of parameters, used only where `freeParams` breaks R6. -/
def fallback : Params :=
  { srcCap := 1024, dstCap := 2048, rxCap := 1024, rdChunk := 4, xerr := [1, 2, 3] }

/-- The parameters after power-on: any legal set can be the value (assumption 1). -/
def params : Params := if freeParams.valid then freeParams else fallback

/-- `draw()` of a byte (R8): the value of the `n`-th draw. -/
opaque freeByte : Nat → Byte

/-- `draw()` of a count (R261): the value of the `n`-th draw. -/
opaque freeNat : Nat → Nat

/-- `draw()` of a choice between two enabled steps (R192): the value of the `n`-th draw. -/
opaque freeBool : Nat → Bool

end Config
end Sys2Proof
end

