-- ==== Sys2Proof/Machine/State.lean ====
section
/-! DEFINITION. The state of one CORE and of the agents around it (spec/10_state.md), the reasons a step could
stop, and the state after power-on (R46, R262). -/

namespace Sys2Proof.Machine

/-- A byte space: (index, byte) pairs in one canonical form, indices strictly rising.  An index that is not listed is
*unwritten* (R40). -/
abbrev Memory := List Host.Cell

/-- What an unlisted index reads as: no byte, so a Core or host read of it is a draw (R40). -/
def Memory.unlisted : Option Byte := none

/-- The canonical form of a byte space.  No entry can equal what an unlisted index reads as, since that is no byte. -/
abbrev Memory.wf (m : Memory) : Prop := m.Pairwise (fun c d => c.1 < d.1)

/-- The error codes of R231, and no others. -/
inductive ErrCode where
  | eNone
  | eIllegalCmd
  | eEncDstTooSmall
  | eDecSrcTooShort
  | eDecDstTooShort
  | eDecZeroCode
  | eMsgTooShort
  | eChecksumMismatch
  | eMalformedRequest
  | eWrite
  | eShortWrite
  | eNoData
  | eTimeout
  | eRead
  | eRxOverflow
  deriving DecidableEq, Repr

/-- The sequencer state held in PHASE (R37). -/
inductive Phase where
  | idle
  | exec
  | write
  | read
  | delay
  deriving DecidableEq, Repr

/-- The fields of STATUS (R26 to R29).  The host cannot write STATUS, and its reserved bits are never set, so the fields
are all it holds; `Status.word` is the word a read gives. -/
structure Status where
  busy : Bool
  done : Bool
  err : Bool
  errcode : ErrCode
  deriving DecidableEq, Repr

/-- A transport error value: an index of the table P_XERR (assumption 2). -/
abbrev TransportError := Nat

/-- The answer to a read request (R22, R186). -/
inductive ReadAnswer where
  | chunk (bs : List Byte)
  | rdErr (e : TransportError)
  deriving DecidableEq, Repr

/-- RD, the read request at the transport (R43). -/
inductive ReadReq where
  | none
  | pending
  | completed (r : ReadAnswer)
  deriving DecidableEq, Repr

/-- The events of the transport port (R44). -/
inductive PortEvent where
  | writeReq (req : List Byte)
  | writeDone (n : Nat) (e : Option TransportError)
  | readReq
  | readDone (r : ReadAnswer)
  | readCancel
  | writeAbandon (k : Nat)
  deriving DecidableEq, Repr

/-- The host's steps (R62, R260).  A REG offset is any natural number: what is not in R24's map is reserved. -/
inductive HostStep where
  | regWrite (off : Nat) (w : Word)
  | regRead (off : Nat)
  | srcWrite (i : Nat) (b : Byte)
  | srcRead (i : Nat)
  | dstRead (i : Nat)
  | reset
  deriving DecidableEq, Repr

/-- The Core's steps (R21).  `exec` is the EXEC step of every command word; for EXCHANGE it is X_START. -/
inductive CoreStep where
  | exec
  | observe
  | timeout
  | delayEnd
  deriving DecidableEq, Repr

/-- The transport's steps (R184, R186). -/
inductive TransportStep where
  | writeDone (n : Nat) (e : Option TransportError)
  | readDone (r : ReadAnswer)
  deriving DecidableEq, Repr

/-- One entry of the agenda: whose step comes next. -/
inductive Turn where
  | host (h : HostStep)
  | core (c : CoreStep)
  | transport (t : TransportStep)
  /-- The Clock's TICK (R23). -/
  | tick
  /-- The block moves by itself: a Core step if one is enabled, else a TICK (assumption 5). -/
  | own
  /-- The pseudo-instruction `poll` (R101). -/
  | poll
  /-- The last part of the pseudo-instruction `result`: `rdst 0, n` for the `n` just read (R101). -/
  | readBack
  deriving DecidableEq, Repr

/-- What a host read returned (R62). -/
inductive ReadResult where
  | word (w : Word)
  | byte (b : Byte)
  deriving DecidableEq, Repr

/-- The state. -/
structure State where
  /-- R6: the parameters of this CORE; no step changes them. -/
  params : Params
  /-- CMD (R25). -/
  cmd : Word
  /-- STATUS (R26 to R29). -/
  status : Status
  /-- SRC_LEN (R30). -/
  srcLen : Word
  /-- DST_LIMIT (R31). -/
  dstLimit : Word
  /-- DST_LEN (R35). -/
  dstLen : Word
  /-- CFG_ATTEMPTS (R32). -/
  cfgAttempts : Word
  /-- CFG_RETRY_DELAY (R33). -/
  cfgRetryDelay : Word
  /-- CFG_READ_TIMEOUT (R34). -/
  cfgReadTimeout : Word
  /-- ATTEMPT_IDX (R36). -/
  attemptIdx : Word
  /-- XERR (R38). -/
  xerr : Word
  /-- PHASE (R37). -/
  phase : Phase
  /-- SRC (R40). -/
  src : Memory
  /-- DST (R40). -/
  dst : Memory
  /-- ACC (R41). -/
  acc : List Byte
  /-- REQ_LEN (R43). -/
  reqLen : Word
  /-- REQ (R43). -/
  req : List Byte
  /-- N, the attempt budget latched at X_START (R43). -/
  latchN : Word
  /-- D, the retry delay latched at X_START (R43). -/
  latchD : Word
  /-- T, the read timeout latched at X_START (R43). -/
  latchT : Word
  /-- T_ARM (R43): a natural number, never wrapping. -/
  tArm : Nat
  /-- T_FAIL (R43): a natural number, never wrapping. -/
  tFail : Nat
  /-- LAST_ERR (R43). -/
  lastErr : ErrCode
  /-- LAST_XERR (R43). -/
  lastXerr : Word
  /-- WR (R43): the pending write request, if any. -/
  wr : Option (List Byte)
  /-- RD (R43). -/
  rd : ReadReq
  /-- `now`, the Clock's tick count (R23). -/
  now : Nat
  /-- TXLOG (R44). -/
  txlog : List Byte
  /-- H (R44). -/
  hist : List PortEvent
  /-- The model's own: the steps planned for the agents, first one next (assumption 4). -/
  agenda : List Turn
  /-- The model's own: how many values have been drawn (assumption 3). -/
  draws : Nat
  /-- The model's own: what the host's reads returned, oldest first (assumption 6). -/
  reads : List ReadResult
  deriving DecidableEq, Repr

/-- The reasons a step could stop with a fault: there are none, since no condition of the CORE is fatal (R230). -/
inductive Fault where
  deriving DecidableEq, Repr

/-- The reasons a step could be refused. -/
inductive Refusal where
  /-- Raised only by an arm of `exec` that has no meaning yet; safe, since the machine stops. -/
  | notModelled (mnemonic : String)
  deriving DecidableEq, Repr

/-- The state at power-on of a CORE with parameters `p` (R46, R262). -/
def State.powerOn (p : Params) : State where
  params := p
  cmd := 0
  status := { busy := false, done := false, err := false, errcode := .eNone }
  srcLen := 0
  dstLimit := BitVec.ofNat 32 p.dstCap
  dstLen := 0
  cfgAttempts := 1
  cfgRetryDelay := 0
  cfgReadTimeout := 0
  attemptIdx := 0
  xerr := 0
  phase := .idle
  src := []
  dst := []
  acc := []
  reqLen := 0
  req := []
  latchN := 0
  latchD := 0
  latchT := 0
  tArm := 0
  tFail := 0
  lastErr := .eNone
  lastXerr := 0
  wr := none
  rd := .none
  now := 0
  txlog := []
  hist := []
  agenda := []
  draws := 0
  reads := []

/-- The machine right after reset: power-on acts as one Reset step (R262). -/
def State.reset : State := State.powerOn Config.params

end Sys2Proof.Machine
end

