-- ==== Sys2Proof/Machine/Flags.lean ====
section
/-! DEFINITION. The STATUS fields and the numbers of the error codes and phases (spec/10_state.md R26 to R29, R37;
spec/60_exceptions.md R231).  The CORE has no other flag (R45). -/

namespace Sys2Proof.Machine

/-- The number of an error code (R231). -/
def ErrCode.code : ErrCode → Byte
  | .eNone => 0x00
  | .eIllegalCmd => 0x01
  | .eEncDstTooSmall => 0x10
  | .eDecSrcTooShort => 0x11
  | .eDecDstTooShort => 0x12
  | .eDecZeroCode => 0x13
  | .eMsgTooShort => 0x20
  | .eChecksumMismatch => 0x21
  | .eMalformedRequest => 0x30
  | .eWrite => 0x31
  | .eShortWrite => 0x32
  | .eNoData => 0x33
  | .eTimeout => 0x34
  | .eRead => 0x35
  | .eRxOverflow => 0x36

/-- The value of PHASE bits[2:0] (R37). -/
def Phase.code : Phase → BitVec 3
  | .idle => 0
  | .exec => 1
  | .write => 2
  | .read => 3
  | .delay => 4

/-- The word a read of PHASE gives: bits[31:3] are 0 (R37). -/
def Phase.word (p : Phase) : Word := p.code.setWidth 32

/-- The word a read of STATUS gives: BUSY bit 0, DONE bit 1, ERR bit 2, ERRCODE bits[15:8], the rest 0 (R26 to R29). -/
def Status.word (st : Status) : Word :=
  (0 : BitVec 16) ++ st.errcode.code ++ (0 : BitVec 5) ++
    BitVec.ofBool st.err ++ BitVec.ofBool st.done ++ BitVec.ofBool st.busy

/-- STATUS after an accepted CMD write: 0x00000001 (R25). -/
def Status.accepted : Status := { busy := true, done := false, err := false, errcode := .eNone }

/-- STATUS after a completion with error code `e` (R235). -/
def Status.completed (e : ErrCode) : Status :=
  { busy := false, done := true, err := e != .eNone, errcode := e }

/-- The codes whose completion leaves DST as it was before the command (R75, R235). -/
def ErrCode.keepsDst (e : ErrCode) : Bool :=
  e == .eEncDstTooSmall || e == .eIllegalCmd || e == .eMalformedRequest

end Sys2Proof.Machine
end

