-- ==== Sys2Proof/Machine/Ops.lean ====
section
/-! DEFINITION. The shared operations: the byte spaces, draws, accepting a command, the completion record and reset
(spec/20_memory.md R62, R63; spec/10_state.md R25; spec/60_exceptions.md R235; spec/70_reset_and_hazards.md R260, R261). -/

namespace Sys2Proof.Machine

/-- The byte at index `i`, or none when it is unwritten (R40). -/
def Memory.byteAt : Memory → Nat → Option Byte
  | [], _ => Memory.unlisted
  | (j, b) :: m, i => if i = j then some b else Memory.byteAt m i

/-- Writes byte `b` at index `i`, keeping the indices rising. -/
def Memory.put : Memory → Nat → Byte → Memory
  | [], i, b => [(i, b)]
  | (j, c) :: m, i, b =>
    if i < j then (i, b) :: (j, c) :: m
    else if i = j then (i, b) :: m
    else (j, c) :: Memory.put m i b

/-- Writes the bytes `bs` at `i`, `i + 1`, …, in index order (R67). -/
def Memory.putAll : Memory → Nat → List Byte → Memory
  | m, _, [] => m
  | m, i, b :: bs => Memory.putAll (Memory.put m i b) (i + 1) bs

/-- Makes every index from `n` on unwritten. -/
def Memory.truncate (m : Memory) (n : Nat) : Memory := m.filter (fun c => c.1 < n)

/-- `draw()` of a byte: a fresh free value (R8). -/
def drawByte (s : State) : Byte × State :=
  (Config.freeByte s.draws, { s with draws := s.draws + 1 })

/-- `draw()` of a choice between two steps that are both enabled (R192). -/
def drawBool (s : State) : Bool × State :=
  (Config.freeBool s.draws, { s with draws := s.draws + 1 })

/-- The host write of `w` to CMD that is accepted: it starts a command (R25). -/
def acceptCommand (w : Word) (s : State) : State :=
  { s with
    cmd := w
    status := Status.accepted
    dstLen := 0
    attemptIdx := 0
    xerr := 0
    phase := .exec }

/-- DST after a completion with code `e` of a command that left `m` there and `len` in DST_LEN (R75, R235). -/
def dstAfter (e : ErrCode) (len : Word) (m : Memory) : Memory :=
  if e = .eNone then m.truncate len.toNat
  else if e.keepsDst then m
  else m.truncate 0

/-- `complete(E, info)`: the completion record, the only way a command ends apart from reset (R235). -/
def complete (e : ErrCode) (info : Word) (s : State) : State :=
  { s with
    status := Status.completed e
    xerr := info
    dst := dstAfter e s.dstLen s.dst
    dstLen := if e = .eNone then s.dstLen else 0
    acc := []
    wr := none
    rd := .none
    phase := .idle }

/-- A command's success with result `out`: the bytes go to DST[0..), DST_LEN takes their number, and the command
completes with E_NONE (R121, R123, R151, R161, R164, R196). -/
def succeed (out : List Byte) (s : State) : State :=
  complete .eNone 0 { s with
    dst := s.dst.putAll 0 out
    dstLen := BitVec.ofNat 32 out.length }

/-- The prefix length `k` of an abandoned write of `r`: a number in 0..len(r), by the `d`-th draw (R261). -/
def abandonedCount (r : List Byte) (d : Nat) : Nat := Config.freeNat d % (r.length + 1)

/-- The event of a read request that is cut off: a pending one is cancelled (R191, R261). -/
def cancelEvents (rd : ReadReq) : List PortEvent :=
  match rd with
  | .pending => [.readCancel]
  | .completed _ => []
  | .none => []

/-- `abandon_transport()`: a pending read is cancelled, and any prefix of a pending write may already be on the wire
(R261). -/
def abandonTransport (s : State) : State :=
  { s with
    txlog := s.txlog ++ (match s.wr with
      | some r => r.take (abandonedCount r s.draws)
      | none => [])
    hist := s.hist ++ cancelEvents s.rd ++ (match s.wr with
      | some r => [.writeAbandon (abandonedCount r s.draws)]
      | none => [])
    draws := match s.wr with
      | some _ => s.draws + 1
      | none => s.draws }

/-- The Reset step: every piece of the CORE takes its value of R46, and the environment stays (R260, R273). -/
def hostReset (s : State) : State :=
  let a := abandonTransport s
  { State.powerOn a.params with
    now := a.now
    txlog := a.txlog
    hist := a.hist
    agenda := a.agenda
    draws := a.draws
    reads := a.reads }

end Sys2Proof.Machine
end

