-- ==== Sys2Proof/Machine/Operands.lean ====
section
/-! DEFINITION. The operand of a command, `SRC[0..SRC_LEN)`, and the register map with its WARL clamps
(spec/20_memory.md R63; spec/10_state.md R24, R30 to R39; spec/30_encoding.md R93). -/

namespace Sys2Proof.Machine

/-- `k` bytes of `m` from index `i` on, read once each in index order; an unwritten byte is a draw, and the second
component counts the draws on from `d` (R40, R63). -/
def readBytes (m : Memory) : (d i k : Nat) → List Byte × Nat
  | d, _, 0 => ([], d)
  | d, i, k + 1 =>
    match m.byteAt i with
    | some b => let r := readBytes m d (i + 1) k; (b :: r.1, r.2)
    | none => let r := readBytes m (d + 1) (i + 1) k; (Config.freeByte d :: r.1, r.2)

/-- The operand `[MemRead(SRC, i, 1) for i in 0..x[SRC_LEN])` (R63). -/
def operand (s : State) : List Byte := (readBytes s.src s.draws 0 s.srcLen.toNat).1

/-- The state after the operand is read: only the count of draws can have moved. -/
def afterOperand (s : State) : State :=
  { s with draws := (readBytes s.src s.draws 0 s.srcLen.toNat).2 }

/-- The registers of R24's map. -/
inductive Reg where
  | cmd
  | status
  | srcLen
  | dstLimit
  | dstLen
  | cfgAttempts
  | cfgRetryDelay
  | cfgReadTimeout
  | attemptIdx
  | xerr
  | phase
  deriving DecidableEq, Repr

/-- The byte offset of a register (R24). -/
def Reg.offset : Reg → Nat
  | .cmd => 0x00
  | .status => 0x04
  | .srcLen => 0x08
  | .dstLimit => 0x0C
  | .dstLen => 0x10
  | .cfgAttempts => 0x14
  | .cfgRetryDelay => 0x18
  | .cfgReadTimeout => 0x1C
  | .attemptIdx => 0x20
  | .xerr => 0x24
  | .phase => 0x28

/-- The register at a byte offset, or none where the offset is reserved (R24, R39). -/
def regAt (off : Nat) : Option Reg :=
  match off with
  | 0x00 => some .cmd
  | 0x04 => some .status
  | 0x08 => some .srcLen
  | 0x0C => some .dstLimit
  | 0x10 => some .dstLen
  | 0x14 => some .cfgAttempts
  | 0x18 => some .cfgRetryDelay
  | 0x1C => some .cfgReadTimeout
  | 0x20 => some .attemptIdx
  | 0x24 => some .xerr
  | 0x28 => some .phase
  | _ => none

/-- The word register `r` holds (R25 to R38). -/
def Reg.value (r : Reg) (s : State) : Word :=
  match r with
  | .cmd => s.cmd
  | .status => s.status.word
  | .srcLen => s.srcLen
  | .dstLimit => s.dstLimit
  | .dstLen => s.dstLen
  | .cfgAttempts => s.cfgAttempts
  | .cfgRetryDelay => s.cfgRetryDelay
  | .cfgReadTimeout => s.cfgReadTimeout
  | .attemptIdx => s.attemptIdx
  | .xerr => s.xerr
  | .phase => s.phase.word

/-- `RegRead(off)`: the register's word, or 0 at a reserved offset (R39, R62). -/
def regRead (off : Nat) (s : State) : Word :=
  match regAt off with
  | some r => r.value s
  | none => 0

/-- `min(v, cap)` on an unsigned word (R30, R31). -/
def clampTo (cap : Nat) (v : Word) : Word := if v.toNat ≤ cap then v else BitVec.ofNat 32 cap

/-- `max(v, 1)` on an unsigned word (R32). -/
def atLeastOne (v : Word) : Word := if v = 0 then 1 else v

/-- A host write of `w` to register `r` while BUSY = 0: a CMD write starts a command, a read/write register stores its
legal value, and a read-only register ignores it (R24, R25, R30 to R34). -/
def Reg.store (r : Reg) (w : Word) (s : State) : State :=
  match r with
  | .cmd => acceptCommand w s
  | .srcLen => { s with srcLen := clampTo s.params.srcCap w }
  | .dstLimit => { s with dstLimit := clampTo s.params.dstCap w }
  | .cfgAttempts => { s with cfgAttempts := atLeastOne w }
  | .cfgRetryDelay => { s with cfgRetryDelay := w }
  | .cfgReadTimeout => { s with cfgReadTimeout := w }
  | .status => s
  | .dstLen => s
  | .attemptIdx => s
  | .xerr => s
  | .phase => s

/-- `RegWrite(off, w)`: ignored while BUSY = 1 and at a reserved offset (R25, R39, R62, R65). -/
def regWrite (off : Nat) (w : Word) (s : State) : State :=
  if s.status.busy then s
  else match regAt off with
    | some r => r.store w s
    | none => s

end Sys2Proof.Machine
end

