-- ==== Sys2Proof/Machine/Checksum.lean ====
section
/-! DEFINITION. Checksum16 and the command CHECKSUM (spec/41_checksum.md R150, R151). -/

namespace Sys2Proof.Machine

/-- One byte's update of the two running sums (R150). -/
def sumStep (ab : Nat × Nat) (v : Byte) : Nat × Nat :=
  ((ab.1 + v.toNat) % 255, (ab.2 + (ab.1 + v.toNat) % 255) % 255)

/-- The two sums after the bytes of `s`, from a = b = 0 (R150). -/
def sums (s : List Byte) : Nat × Nat := s.foldl sumStep (0, 0)

/-- `checksum16(s) = [a, b]` (R150). -/
def checksum16 (s : List Byte) : List Byte :=
  [BitVec.ofNat 8 (sums s).1, BitVec.ofNat 8 (sums s).2]

/-- CHECKSUM (R151). -/
def execChecksum (s : State) : Host.Outcome State Fault Refusal :=
  .next (succeed (checksum16 (operand s)) (afterOperand s))

end Sys2Proof.Machine
end

