-- ==== Sys2Proof/Machine/Codec.lean ====
section
/-! DEFINITION. The ByteStuffingCodec: the stuffing functions and the commands ENCODE and DECODE
(spec/40_codec.md R120 to R123; spec/30_encoding.md R94). -/

namespace Sys2Proof.Machine

/-- `encoded_capacity(n) = n + n div 254 + 1` (R94). -/
def encodedCapacity (n : Nat) : Nat := n + n / 254 + 1

/-- The block of a run: its code byte, run length + 1, then the run (R95, R120). -/
def block (run : List Byte) : List Byte := BitVec.ofNat 8 (run.length + 1) :: run

/-- The stuffing loop of R120.  `run` holds the bytes since the pending code byte, so R120's `code` is its length + 1,
and the code byte is placed when the run ends. -/
def stuff : (run src : List Byte) → List Byte
  | run, [] => block run
  | run, v :: vs =>
    if v = 0 then block run ++ stuff [] vs
    else if run.length + 2 = 0xFF then block (run ++ [v]) ++ stuff [] vs
    else stuff (run ++ [v]) vs

/-- `cobs_encode(s)` (R120). -/
def cobsEncode (s : List Byte) : List Byte :=
  match s with
  | [] => []
  | v :: vs => stuff [] (v :: vs)

/-- The unstuffing loop of R122 over the blocks of `rest`.  Every block takes at least its code byte, so a fuel of
`rest.length` never runs out. -/
def unstuff (limit : Nat) : (fuel : Nat) → (rest out : List Byte) → (phantom : Bool) →
    Except ErrCode (List Byte)
  | fuel + 1, c :: rest, out, _ =>
    if c = 0 then .error .eDecZeroCode
    else if rest.length + 1 < c.toNat then .error .eDecSrcTooShort
    else if limit < out.length + (c.toNat - 1) then .error .eDecDstTooShort
    else if c.toNat < 0xFF then
      if limit < out.length + (c.toNat - 1) + 1 then .error .eDecDstTooShort
      else unstuff limit fuel (rest.drop (c.toNat - 1)) (out ++ rest.take (c.toNat - 1) ++ [0]) true
    else unstuff limit fuel (rest.drop (c.toNat - 1)) (out ++ rest.take (c.toNat - 1)) false
  | _, _, out, phantom => .ok (if phantom then out.dropLast else out)

/-- `cobs_decode(s, L)` (R122). -/
def cobsDecode (s : List Byte) (limit : Nat) : Except ErrCode (List Byte) :=
  unstuff limit s.length s [] false

/-- The end of a command whose result a pure function computed: the result, or the error's record. -/
def finish (r : Except ErrCode (List Byte)) (s : State) : State :=
  match r with
  | .ok out => succeed out s
  | .error e => complete e 0 s

/-- ENCODE (R121). -/
def execEncode (s : State) : Host.Outcome State Fault Refusal :=
  let src := operand s
  let t := afterOperand s
  if s.srcLen = 0 then .next (succeed [] t)
  else if s.dstLimit.toNat < encodedCapacity s.srcLen.toNat then
    .next (complete .eEncDstTooSmall 0 t)
  else .next (succeed (cobsEncode src) t)

/-- DECODE (R123). -/
def execDecode (s : State) : Host.Outcome State Fault Refusal :=
  .next (finish (cobsDecode (operand s) s.dstLimit.toNat) (afterOperand s))

end Sys2Proof.Machine
end

