-- ==== Sys2Proof/Machine/Frame.lean ====
section
/-! DEFINITION. The FrameProtocol and the commands ENCODE_FRAME and DECODE_FRAME (spec/42_frame.md R160 to R164). -/

namespace Sys2Proof.Machine

/-- The Frame of payload `p`: the payload, then its checksum (R97). -/
def frameOf (p : List Byte) : List Byte := p ++ checksum16 p

/-- `frame_encode(p)` (R160). -/
def frameEncode (p : List Byte) : List Byte := cobsEncode (frameOf p)

/-- The part of `frame_decode` after unstuffing: split the trailer off and verify it (R163). -/
def verifyFrame (f : List Byte) : Except ErrCode (List Byte) :=
  if f.length < 2 then .error .eMsgTooShort
  else if checksum16 (f.take (f.length - 2)) ≠ f.drop (f.length - 2) then .error .eChecksumMismatch
  else .ok (f.take (f.length - 2))

/-- `frame_decode(s)` (R163). -/
def frameDecode (s : List Byte) : Except ErrCode (List Byte) :=
  match cobsDecode s s.length with
  | .error e => .error e
  | .ok f => verifyFrame f

/-- ENCODE_FRAME (R161). -/
def execEncodeFrame (s : State) : Host.Outcome State Fault Refusal :=
  .next (succeed (frameEncode (operand s)) (afterOperand s))

/-- DECODE_FRAME (R164). -/
def execDecodeFrame (s : State) : Host.Outcome State Fault Refusal :=
  .next (finish (frameDecode (operand s)) (afterOperand s))

end Sys2Proof.Machine
end

