-- ==== Sys2Proof/Machine/Exchange.lean ====
section
/-! DEFINITION. The ReliableChannel: the command EXCHANGE and the Core and Transport steps of its state machine
(spec/43_exchange.md R180 to R205). -/

namespace Sys2Proof.Machine

/-- `begin_attempt()` (R183). -/
def beginAttempt (s : State) : State :=
  { s with
    attemptIdx := s.attemptIdx + 1
    acc := []
    tArm := s.now
    wr := some s.req
    hist := s.hist ++ [.writeReq s.req]
    phase := .write }

/-- `issue_read()` (R185). -/
def issueRead (s : State) : State :=
  { s with
    rd := .pending
    hist := s.hist ++ [.readReq]
    phase := .read }

/-- `attempt_fail(E, info)` (R193). -/
def attemptFail (e : ErrCode) (info : Word) (s : State) : State :=
  if s.attemptIdx = s.latchN then
    complete e info { s with lastErr := e, lastXerr := info, acc := [] }
  else
    { s with lastErr := e, lastXerr := info, acc := [], tFail := s.now, phase := .delay }

/-- A request is whole when its last byte is the sentinel; an empty one has no last byte (R181). -/
def requestOk (req : List Byte) : Bool := req.getLast? == some 0

/-- What X_START latches before its check: REQ_LEN and REQ, read once (R181). -/
def latchRequest (s : State) : State :=
  { afterOperand s with reqLen := s.srcLen, req := operand s }

/-- What X_START latches after its check: N, D, T and no error yet (R182). -/
def latchConfig (s : State) : State :=
  { s with
    latchN := s.cfgAttempts
    latchD := s.cfgRetryDelay
    latchT := s.cfgReadTimeout
    lastErr := .eNone
    lastXerr := 0 }

/-- EXCHANGE: X_START, its EXEC step (R181, R182). -/
def execExchange (s : State) : Host.Outcome State Fault Refusal :=
  if requestOk (operand s) then .next (beginAttempt (latchConfig (latchRequest s)))
  else .next (complete .eMalformedRequest 0 (latchRequest s))

/-- `P_XERR(e)`: the XERR word of a transport error (R233). -/
def xerrWord (p : Params) (e : TransportError) : Word := p.xerr.getD e 0

/-- T_WRITE_DONE(n, e) on the pending write `r` (R184). -/
def writeDone (r : List Byte) (n : Nat) (e : Option TransportError) (s : State) : State :=
  let t := { s with txlog := s.txlog ++ r.take n, hist := s.hist ++ [.writeDone n e], wr := none }
  match e with
  | some err => attemptFail .eWrite (xerrWord s.params err) t
  | none => if n ≠ s.reqLen.toNat then attemptFail .eShortWrite 0 t else issueRead t

/-- T_READ_DONE(r) (R186). -/
def readDone (r : ReadAnswer) (s : State) : State :=
  { s with rd := .completed r, hist := s.hist ++ [.readDone r] }

/-- How the scan of a chunk ends (R189). -/
inductive ScanEnd where
  /-- The first sentinel: the message before it. -/
  | message (m : List Byte)
  /-- A non-zero byte arrived with ACC full. -/
  | overflow
  /-- No sentinel yet: what ACC holds now. -/
  | more (acc : List Byte)
  deriving DecidableEq, Repr

/-- `scan(bs)` on an accumulation buffer of capacity `cap` that holds `acc` (R189). -/
def scan (cap : Nat) : (acc bs : List Byte) → ScanEnd
  | acc, [] => .more acc
  | acc, v :: bs =>
    if v = 0 then .message acc
    else if acc.length = cap then .overflow
    else scan cap (acc ++ [v]) bs

/-- `deliver(m)`, with `success(p)` (R190, R196). -/
def deliver (m : List Byte) (s : State) : State :=
  match frameDecode m with
  | .error e => attemptFail e 0 s
  | .ok p => succeed p s

/-- What the Core does with a chunk it observes (R187 to R189). -/
def takeChunk (bs : List Byte) (s : State) : State :=
  match bs with
  | [] => if s.acc = [] then attemptFail .eNoData 0 s else issueRead s
  | b :: bs =>
    match scan s.params.rxCap s.acc (b :: bs) with
    | .message m => deliver m { s with acc := m }
    | .overflow => attemptFail .eRxOverflow 0 s
    | .more acc => issueRead { s with acc := acc }

/-- X_OBSERVE of the answer `r` (R187). -/
def observe (r : ReadAnswer) (s : State) : State :=
  let t := { s with rd := .none }
  match r with
  | .rdErr e => attemptFail .eRead (xerrWord s.params e) t
  | .chunk bs => takeChunk bs t

/-- X_TIMEOUT: a pending read is cancelled, an answer not yet observed is lost (R191). -/
def timeout (s : State) : State :=
  attemptFail .eTimeout 0 { s with rd := .none, hist := s.hist ++ cancelEvents s.rd }

/-- The deadline has fired: `now − T_ARM ≥ T` (R191, R243). -/
def deadlineFired (s : State) : Bool := s.latchT.toNat ≤ s.now - s.tArm

/-- The retry delay has expired: `now − T_FAIL ≥ D` (R194, R244). -/
def delayOver (s : State) : Bool := s.latchD.toNat ≤ s.now - s.tFail

end Sys2Proof.Machine
end

