-- ==== Sys2Proof/Machine/Dispatch.lean ====
section
/-! DEFINITION. The meaning of each command: its EXEC step (spec/30_encoding.md R91). -/

namespace Sys2Proof.Machine

def exec (i : Instr) (s : State) : Host.Outcome State Fault Refusal :=
  match i with
  | .encode => Sys2Proof.Machine.execEncode s
  | .decode => Sys2Proof.Machine.execDecode s
  | .checksum => Sys2Proof.Machine.execChecksum s
  | .encodeFrame => Sys2Proof.Machine.execEncodeFrame s
  | .decodeFrame => Sys2Proof.Machine.execDecodeFrame s
  | .exchange => Sys2Proof.Machine.execExchange s

end Sys2Proof.Machine
end

