-- ==== Sys2Proof/Machine/Agents.lean ====
section
/-! DEFINITION. The steps of the four agents and when each is enabled (spec/10_state.md R21 to R23; spec/20_memory.md
R62; spec/43_exchange.md R204).  A turn whose step is not enabled passes without effect (assumption 4). -/

namespace Sys2Proof.Machine

/-- Records what a host read returned. -/
def returned (r : ReadResult) (s : State) : State := { s with reads := s.reads ++ [r] }

/-- The host read of a byte: a defined byte, or a draw where it is unwritten (R40, R62). -/
def returnByte (b : Option Byte) (s : State) : State :=
  match b with
  | some b => returned (.byte b) s
  | none => let d := drawByte s; returned (.byte d.1) d.2

/-- `SrcWrite(i, b)` (R62, R65). -/
def srcWrite (i : Nat) (b : Byte) (s : State) : State :=
  if s.status.busy = false ∧ i < s.params.srcCap then { s with src := s.src.put i b } else s

/-- `SrcRead(i)` (R62). -/
def srcRead (i : Nat) (s : State) : State :=
  if i < s.params.srcCap then returnByte (s.src.byteAt i) s else returned (.byte 0) s

/-- `DstRead(i)`: a draw while BUSY = 1 (R62, R66). -/
def dstRead (i : Nat) (s : State) : State :=
  if s.params.dstCap ≤ i then returned (.byte 0) s
  else if s.status.busy then returnByte none s
  else returnByte (s.dst.byteAt i) s

/-- A Host step: always enabled (R62, R260). -/
def hostStep (h : HostStep) (s : State) : State :=
  match h with
  | .regWrite off w => regWrite off w s
  | .regRead off => returned (.word (regRead off s)) s
  | .srcWrite i b => srcWrite i b s
  | .srcRead i => srcRead i s
  | .dstRead i => dstRead i s
  | .reset => hostReset s

/-- The EXEC step of the accepted word: the command's meaning, or E_ILLEGAL_CMD (R91, R92). -/
def execCommand (s : State) : Host.Outcome State Fault Refusal :=
  match decode s.cmd with
  | .ok i => exec i s
  | .error _ => .next (complete .eIllegalCmd 0 s)

/-- When a Core step is enabled (R187, R191, R194, R204). -/
def coreEnabled (c : CoreStep) (s : State) : Bool :=
  match c with
  | .exec => s.phase == .exec
  | .observe =>
    match s.rd with
    | .completed _ => s.phase == .read
    | .pending => false
    | .none => false
  | .timeout => s.phase == .read && deadlineFired s
  | .delayEnd => s.phase == .delay && delayOver s

/-- A Core step that is enabled (R187, R191, R194). -/
def coreEffect (c : CoreStep) (s : State) : Host.Outcome State Fault Refusal :=
  match c with
  | .exec => execCommand s
  | .observe =>
    match s.rd with
    | .completed r => .next (observe r s)
    | .pending => .next s
    | .none => .next s
  | .timeout => .next (timeout s)
  | .delayEnd => .next (beginAttempt s)

/-- A Core turn. -/
def coreStep (c : CoreStep) (s : State) : Host.Outcome State Fault Refusal :=
  if coreEnabled c s then coreEffect c s else .next s

/-- A transport error the transport can report: P_XERR gives it a word (R22, R233). -/
def errorKnown (p : Params) (e : TransportError) : Bool := e < p.xerr.length

/-- The answers to a write of `r` that R22 allows. -/
def writeAnswerOk (p : Params) (r : List Byte) (n : Nat) (e : Option TransportError) : Bool :=
  n ≤ r.length && (match e with | some err => errorKnown p err | none => true)

/-- The answers to a read that R22 allows. -/
def readAnswerOk (p : Params) (r : ReadAnswer) : Bool :=
  match r with
  | .chunk bs => bs.length ≤ p.rdChunk
  | .rdErr e => errorKnown p e

/-- A Transport turn: enabled when the request is pending and the answer is one R22 allows (R184, R186). -/
def transportStep (t : TransportStep) (s : State) : State :=
  match t with
  | .writeDone n e =>
    match s.wr with
    | some r => if s.phase = .write ∧ writeAnswerOk s.params r n e then writeDone r n e s else s
    | none => s
  | .readDone r =>
    if s.phase = .read ∧ s.rd = .pending ∧ readAnswerOk s.params r then readDone r s else s

/-- TICK (R23). -/
def tick (s : State) : State := { s with now := s.now + 1 }

/-- The block moving by itself: every enabled Core step before the next TICK, and a free choice where X_OBSERVE and
X_TIMEOUT race (R192, R201; assumption 5). -/
def ownMove (s : State) : Host.Outcome State Fault Refusal :=
  if coreEnabled .exec s then coreEffect .exec s
  else if coreEnabled .observe s && coreEnabled .timeout s then
    let d := drawBool s
    if d.1 then coreEffect .observe d.2 else coreEffect .timeout d.2
  else if coreEnabled .observe s then coreEffect .observe s
  else if coreEnabled .timeout s then coreEffect .timeout s
  else if coreEnabled .delayEnd s then coreEffect .delayEnd s
  else .next (tick s)

/-- A step of an agent other than the host, which a host that polls lets pass. -/
def Turn.environment : Turn → Bool
  | .core _ => true
  | .transport _ => true
  | .tick => true
  | .own => true
  | .host _ => false
  | .poll => false
  | .readBack => false

/-- The plan of a `poll` that must read again: the next planned step of another agent comes first, or a move of the block
where the plan goes on with a host step (assumption 10). -/
def pollAgain : List Turn → List Turn
  | t :: rest => if t.environment then t :: .poll :: rest else .own :: .poll :: t :: rest
  | [] => [.own, .poll]

/-- One read of `poll`: it repeats while BUSY is 1 (R101). -/
def pollStep (s : State) : State :=
  let t := returned (.word (regRead 0x04 s)) s
  if s.status.busy then { t with agenda := pollAgain s.agenda } else t

/-- The reads of DST that end `result`: as many as the number the host has just read (R101). -/
def readBackStep (s : State) : State :=
  match s.reads.getLast? with
  | some (.word n) =>
    { s with agenda := (List.range n.toNat).map (fun i => .host (.dstRead i)) ++ s.agenda }
  | some (.byte _) => s
  | none => s

/-- One turn. -/
def takeTurn (t : Turn) (s : State) : Host.Outcome State Fault Refusal :=
  match t with
  | .host h => .next (hostStep h s)
  | .core c => coreStep c s
  | .transport a => .next (transportStep a s)
  | .tick => .next (tick s)
  | .own => ownMove s
  | .poll => .next (pollStep s)
  | .readBack => .next (readBackStep s)

end Sys2Proof.Machine
end

