-- ==== Sys2Proof/Machine/Step.lean ====
section
/-! DEFINITION. One step of the whole machine, and where a command word is placed for it (spec/10_state.md R21, R25). -/

namespace Sys2Proof.Machine

/-- One step: the turn at the head of the agenda, or the block's own move when no turn is planned (assumptions 4, 5). -/
def step (s : State) : Host.Outcome State Fault Refusal :=
  match s.agenda with
  | [] => ownMove s
  | t :: rest => takeTurn t { s with agenda := rest }

/-- The command word `w` accepted (R25) and its EXEC step next (assumption 8). -/
def State.withFetchWord (s : State) (_nbits w : Nat) : State :=
  { acceptCommand (BitVec.ofNat 32 w) s with agenda := .core .exec :: s.agenda }

end Sys2Proof.Machine
end

