-- ==== Sys2Proof/Machine/Asm.lean ====
section
/-! DEFINITION. The host assembly language: its statements, their expansion to host steps and the bus transactions that
encode them (spec/30_encoding.md R100, R101). -/

namespace Sys2Proof.Machine

/-- The statements of R100 and the pseudo-instructions of R101. -/
inductive AsmStmt where
  | wr (r : Reg) (imm : Word)
  | rd (r : Reg)
  | wsrc (i : Nat) (bs : List Byte)
  | rsrc (i n : Nat)
  | rdst (i n : Nat)
  | reset
  | cmd (m : Instr)
  | poll
  | load (bs : List Byte)
  | run (m : Instr)
  | result
  deriving DecidableEq, Repr

/-- `wsrc i, b0 b1 …`: one SrcWrite a byte, at rising indices (R100). -/
def wsrcTurns : Nat → List Byte → List Turn
  | _, [] => []
  | i, b :: bs => .host (.srcWrite i b) :: wsrcTurns (i + 1) bs

/-- `wr REG, imm` (R100). -/
def wrTurn (r : Reg) (imm : Word) : Turn := .host (.regWrite r.offset imm)

/-- `rd REG` (R100). -/
def rdTurn (r : Reg) : Turn := .host (.regRead r.offset)

/-- The expansion of a statement to the host's turns (R100, R101). -/
def AsmStmt.turns : AsmStmt → List Turn
  | .wr r imm => [wrTurn r imm]
  | .rd r => [rdTurn r]
  | .wsrc i bs => wsrcTurns i bs
  | .rsrc i n => (List.range n).map (fun j => .host (.srcRead (i + j)))
  | .rdst i n => (List.range n).map (fun j => .host (.dstRead (i + j)))
  | .reset => [.host .reset]
  | .cmd m => [wrTurn .cmd (encode m)]
  | .poll => [.poll]
  | .load bs => wsrcTurns 0 bs ++ [wrTurn .srcLen (BitVec.ofNat 32 bs.length)]
  | .run m => [wrTurn .cmd (encode m), .poll]
  | .result => [rdTurn .status, rdTurn .dstLen, .readBack]

/-- A host program, planned after what is planned already: straight-line, one statement after the other (R100). -/
def plan (program : List AsmStmt) (s : State) : State :=
  { s with agenda := s.agenda ++ program.flatMap AsmStmt.turns }

/-- A hexadecimal digit. -/
def hexDigit (n : Nat) : String :=
  match n with
  | 0 => "0" | 1 => "1" | 2 => "2" | 3 => "3" | 4 => "4" | 5 => "5" | 6 => "6" | 7 => "7"
  | 8 => "8" | 9 => "9" | 10 => "A" | 11 => "B" | 12 => "C" | 13 => "D" | 14 => "E" | _ => "F"

/-- The low `k` hexadecimal digits of `n`, most significant first. -/
def hexText : (k n : Nat) → String
  | 0, _ => ""
  | k + 1, n => hexText k (n / 16) ++ hexDigit (n % 16)

/-- A register offset in hexadecimal: two digits, as the vectors of spec/95_test_vectors.md section 7 write it, and more where
it needs them (the latter DESIGN CHOICE, safe, assumption 16). -/
def offsetText (off : Nat) : String := hexText (max 2 (off.log2 / 4 + 1)) off

/-- The bus transaction that encodes a host step (R100).  R100 gives an SRC or DST index no base, and the vectors show single
digits alone: it is written in decimal (DESIGN CHOICE, safe, assumption 16). -/
def HostStep.text : HostStep → String
  | .regWrite off w => "W REG 0x" ++ offsetText off ++ " " ++ hexText 8 w.toNat
  | .regRead off => "R REG 0x" ++ offsetText off
  | .srcWrite i b => "W SRC " ++ toString i ++ " " ++ hexText 2 b.toNat
  | .srcRead i => "R SRC " ++ toString i
  | .dstRead i => "R DST " ++ toString i
  | .reset => "RESET"

/-- The bus transaction of a turn that a statement expands to; `poll` is its first read with the repeat condition (R101).
No statement expands to a turn of another agent.  R101 words neither the repeat condition nor the reads that end `result`,
whose number is known only when the host runs: one line that names them by the DST_LEN just read (DESIGN CHOICE, safe,
assumption 16). -/
def Turn.text : Turn → List String
  | .host h => [h.text]
  | .poll => ["R REG 0x04 (repeat while bit 0 = 1)"]
  | .readBack => ["R DST 0 .. R DST n-1 (n = the DST_LEN just read)"]
  | .core _ => []
  | .transport _ => []
  | .tick => []
  | .own => []

/-- The encoding of a host program: the bus transactions of its expanded statements (R101). -/
def encodeProgram (program : List AsmStmt) : List String :=
  program.flatMap (fun m => m.turns.flatMap Turn.text)

/-- The name of a register in the assembly language (R24, R100). -/
def Reg.name : Reg → String
  | .cmd => "CMD"
  | .status => "STATUS"
  | .srcLen => "SRC_LEN"
  | .dstLimit => "DST_LIMIT"
  | .dstLen => "DST_LEN"
  | .cfgAttempts => "CFG_ATTEMPTS"
  | .cfgRetryDelay => "CFG_RETRY_DELAY"
  | .cfgReadTimeout => "CFG_READ_TIMEOUT"
  | .attemptIdx => "ATTEMPT_IDX"
  | .xerr => "XERR"
  | .phase => "PHASE"

/-- The mnemonic of a command (R91). -/
def mnemonicOf : Instr → String
  | .encode => "ENCODE"
  | .decode => "DECODE"
  | .checksum => "CHECKSUM"
  | .encodeFrame => "ENCODE_FRAME"
  | .decodeFrame => "DECODE_FRAME"
  | .exchange => "EXCHANGE"

/-- Bytes as pairs of hexadecimal digits, each after a space (R100). -/
def byteTexts (bs : List Byte) : String := bs.foldl (fun t b => t ++ " " ++ hexText 2 b.toNat) ""

/-- The text of a statement (R100, R101): a register's immediate in hexadecimal, an index or a count in decimal, the two forms
R100 allows (DESIGN CHOICE, safe, assumption 16). -/
def AsmStmt.text : AsmStmt → String
  | .wr r imm => "wr " ++ r.name ++ ", 0x" ++ hexText 8 imm.toNat
  | .rd r => "rd " ++ r.name
  | .wsrc i bs => "wsrc " ++ toString i ++ "," ++ byteTexts bs
  | .rsrc i n => "rsrc " ++ toString i ++ ", " ++ toString n
  | .rdst i n => "rdst " ++ toString i ++ ", " ++ toString n
  | .reset => "reset"
  | .cmd m => "cmd " ++ mnemonicOf m
  | .poll => "poll"
  | .load bs => "load" ++ byteTexts bs
  | .run m => "run " ++ mnemonicOf m
  | .result => "result"

end Sys2Proof.Machine
end

