-- ==== Sys2Proof/Safety.lean ====
section
/-! DEFINITION. What holds in every state of a run: the invariants of spec/10_state.md R47 with the ranges, the canonical
form of the byte spaces and the latches of R43, and the codes each command can complete with (R234). -/

namespace Sys2Proof.Machine

/-- Every listed index is below `n`. -/
def Memory.below (m : Memory) (n : Nat) : Prop := ∀ c ∈ m, c.1 < n

/-- An exchange is under way past its EXEC step. -/
def State.inExchange (s : State) : Prop := s.phase = .write ∨ s.phase = .read ∨ s.phase = .delay

/-- The parameters are legal, the byte spaces in canonical form and within their sizes, and the WARL registers hold legal
values (R6, R30 to R35, R40). -/
structure State.Ranges (s : State) : Prop where
  params : s.params.valid = true
  srcWf : s.src.wf
  srcBelow : s.src.below s.params.srcCap
  dstWf : s.dst.wf
  dstBelow : s.dst.below s.params.dstCap
  srcLen : s.srcLen.toNat ≤ s.params.srcCap
  dstLimit : s.dstLimit.toNat ≤ s.params.dstCap
  dstLen : s.dstLen.toNat ≤ s.params.dstCap
  attempts : s.cfgAttempts ≠ 0

/-- STATUS, DST_LEN and XERR agree with each other, with PHASE and with DST. -/
structure State.Record (s : State) : Prop where
  /-- R37, R47: BUSY = 0 exactly when PHASE = IDLE. -/
  busy : s.status.busy = false ↔ s.phase = .idle
  /-- R47: DONE = 1 only when BUSY = 0. -/
  done : s.status.done = true → s.status.busy = false
  /-- R28. -/
  err : s.status.err = true ↔ s.status.errcode ≠ .eNone
  /-- R35: only a success has a result. -/
  errLen : s.status.errcode ≠ .eNone → s.dstLen = 0
  /-- R25: a running command has no completion record yet. -/
  running : s.status.busy = true → s.status.errcode = .eNone ∧ s.xerr = 0 ∧ s.dstLen = 0
  /-- R233: XERR ≠ 0 exactly when the transport's own error is reported. -/
  xerr : s.xerr ≠ 0 ↔ (s.status.errcode = .eWrite ∨ s.status.errcode = .eRead)
  /-- R75: after a success exactly the result's bytes are written. -/
  result : s.status.done = true → s.status.errcode = .eNone →
    ∀ i, (s.dst.byteAt i).isSome = true ↔ i < s.dstLen.toNat

/-- The requests at the transport and the accumulation buffer agree with PHASE. -/
structure State.Port (s : State) : Prop where
  /-- R47: PHASE = WRITE exactly when WR is pending, with the latched request. -/
  write : s.phase = .write ↔ s.wr.isSome = true
  request : ∀ r, s.wr = some r → r = s.req
  /-- R47: RD is NONE outside PHASE = READ, and a read loop has a request at the transport. -/
  read : s.phase = .read ↔ s.rd ≠ .none
  /-- R22: an answer the transport gave is one it may give. -/
  answer : ∀ r, s.rd = .completed r → readAnswerOk s.params r = true
  /-- R41: ACC holds no sentinel and is empty outside the read loop. -/
  accZero : (0 : Byte) ∉ s.acc
  accLen : s.acc.length ≤ s.params.rxCap
  accIdle : s.phase ≠ .read → s.acc = []
  /-- R43: REQ has REQ_LEN bytes. -/
  reqLen : s.req.length = s.reqLen.toNat

/-- What holds while an exchange is under way, and that an attempt is counted only once it begins. -/
structure State.Attempts (s : State) : Prop where
  /-- R36. -/
  notBegun : s.phase = .exec → s.attemptIdx = 0
  /-- R47: only EXCHANGE has these phases. -/
  command : s.inExchange → s.cmd = encode .exchange
  /-- R43, R181: the latches equal their registers, and the request is whole. -/
  latched : s.inExchange → s.latchN = s.cfgAttempts ∧ s.latchD = s.cfgRetryDelay ∧
    s.latchT = s.cfgReadTimeout ∧ s.reqLen = s.srcLen ∧ requestOk s.req = true
  /-- R47: 1 ≤ ATTEMPT_IDX ≤ N, and below N while a delay is waited out. -/
  budget : s.inExchange → 1 ≤ s.attemptIdx.toNat ∧ s.attemptIdx.toNat ≤ s.latchN.toNat
  budgetLeft : s.phase = .delay → s.attemptIdx.toNat < s.latchN.toNat
  /-- R43: the timers were started in the past. -/
  armed : s.inExchange → s.tArm ≤ s.now
  failed : s.phase = .delay → s.tFail ≤ s.now

/-- The invariant of the machine (R47 and the ranges above). -/
structure State.Inv (s : State) : Prop where
  ranges : s.Ranges
  record : s.Record
  port : s.Port
  attempts : s.Attempts

/-- The codes a command word can complete with (R234). -/
def codesOf (w : Word) : List ErrCode :=
  match decode w with
  | .ok .encode => [.eNone, .eEncDstTooSmall]
  | .ok .decode => [.eNone, .eDecSrcTooShort, .eDecDstTooShort, .eDecZeroCode]
  | .ok .checksum => [.eNone]
  | .ok .encodeFrame => [.eNone]
  | .ok .decodeFrame => [.eNone, .eDecSrcTooShort, .eDecZeroCode, .eMsgTooShort, .eChecksumMismatch]
  | .ok .exchange => [.eNone, .eDecSrcTooShort, .eMsgTooShort, .eChecksumMismatch, .eMalformedRequest,
      .eWrite, .eShortWrite, .eNoData, .eTimeout, .eRead, .eRxOverflow]
  | .error _ => [.eIllegalCmd]

/-- The completion record of the last command holds a code that command can complete with (R234). -/
def State.codeOk (s : State) : Prop := s.status.done = true → s.status.errcode ∈ codesOf s.cmd

/-- How many write requests the event history holds (R44, R202). -/
def writeCount (h : List PortEvent) : Nat :=
  h.countP (fun e => match e with | .writeReq _ => true | _ => false)

end Sys2Proof.Machine

namespace Sys2Proof.Machine

/-! ### What a completion leaves -/

/-- The count of draws after the operand of a command has been read. -/
def State.operandDraws (s : State) : Nat := (readBytes s.src s.draws 0 s.srcLen.toNat).2

/-- The state `s` with the completion record of code `e`: BUSY 0, DONE 1, ERR, ERRCODE, XERR, DST_LEN, DST, PHASE IDLE and
no request at the transport (R235).  Everything else, the draws apart, is as in `s`. -/
def State.recorded (s : State) (draws : Nat) (e : ErrCode) (info len : Word) (dst : Memory) : State :=
  { s with
    draws := draws
    status := { busy := false, done := true, err := decide (e ≠ .eNone), errcode := e }
    xerr := info
    dstLen := len
    dst := dst
    acc := []
    wr := none
    rd := .none
    phase := .idle }

/-- Exactly the bytes `out` are written in `m`, from index 0 on (R75). -/
def Memory.holds (m : Memory) (out : List Byte) : Prop := ∀ i, m.byteAt i = out[i]?

/-! ### The spec's pseudocode, index by index -/

/-- The variables of R120's loop. -/
structure EncodeLoop where
  out : List Byte
  ci : Nat
  code : Nat
  deriving DecidableEq, Repr

/-- One pass of R120's loop on byte `v`. -/
def EncodeLoop.next (l : EncodeLoop) (v : Byte) : EncodeLoop :=
  if v = 0 then
    { out := l.out.set l.ci (BitVec.ofNat 8 l.code) ++ [0], ci := l.out.length, code := 1 }
  else if l.code + 1 = 0xFF then
    { out := (l.out ++ [v]).set l.ci 0xFF ++ [0], ci := l.out.length + 1, code := 1 }
  else
    { out := l.out ++ [v], ci := l.ci, code := l.code + 1 }

/-- R120 with its placeholder bytes and indices. -/
def cobsEncodeIndexed (s : List Byte) : List Byte :=
  if s.length = 0 then []
  else
    let l := s.foldl EncodeLoop.next { out := [0], ci := 0, code := 1 }
    l.out.set l.ci (BitVec.ofNat 8 l.code)

/-- R122's loop with its index `i` into `s`; the fuel bounds the number of passes. -/
def decodeLoop (limit : Nat) (s : List Byte) : (fuel i : Nat) → (out : List Byte) → (phantom : Bool) →
    Except ErrCode (List Byte)
  | 0, _, out, phantom => .ok (if phantom then out.take (out.length - 1) else out)
  | fuel + 1, i, out, phantom =>
    if s.length ≤ i then .ok (if phantom then out.take (out.length - 1) else out)
    else
      let code := (s.getD i 0).toNat
      if code = 0 then .error .eDecZeroCode
      else if s.length < i + code then .error .eDecSrcTooShort
      else if limit < out.length + (code - 1) then .error .eDecDstTooShort
      else
        let copied := out ++ (s.drop (i + 1)).take (code - 1)
        if code < 0xFF then
          if limit < copied.length + 1 then .error .eDecDstTooShort
          else decodeLoop limit s fuel (i + code) (copied ++ [0]) true
        else decodeLoop limit s fuel (i + code) copied false

/-- R122 by its indices: every pass moves `i` on, so `s.length` passes are enough. -/
def cobsDecodeIndexed (s : List Byte) (limit : Nat) : Except ErrCode (List Byte) :=
  decodeLoop limit s s.length 0 [] false

/-- Index `j` of the stuffed bytes `s` holds a code byte (R95, R96). -/
def codeByteAt : (fuel : Nat) → (s : List Byte) → (j : Nat) → Bool
  | fuel + 1, c :: rest, j =>
    j == 0 || (c.toNat ≤ j && codeByteAt fuel (rest.drop (c.toNat - 1)) (j - c.toNat))
  | _, _, _ => false

/-- `n·s[0] + (n−1)·s[1] + … + 1·s[n−1]` (R152). -/
def weightedSum : List Byte → Nat
  | [] => 0
  | v :: vs => (vs.length + 1) * v.toNat + weightedSum vs

end Sys2Proof.Machine
end

