-- ==== Sys2Proof/Certificates/Slice0/Obligations.lean ====
section
/-! DEFINITION. The statements for the provers. -/

open Sys2Proof Sys2Proof.Machine

/-! ### Reset -/

/-- R262: power-on acts as one Reset step, with `now` 0 and TXLOG and H empty, the model's own fields (assumptions 3, 4,
6) apart. -/
def Obligations.PowerOnIsReset : Prop :=
  (State.reset.now = 0 ∧ State.reset.txlog = [] ∧ State.reset.hist = []) ∧
  ∀ s : State, s.params = Config.params → s.now = 0 → s.txlog = [] → s.hist = [] → s.wr = none → s.rd = .none →
    { hostReset s with
      agenda := State.reset.agenda, draws := State.reset.draws, reads := State.reset.reads } = State.reset

/-- R46, R260, R261, R273: what a Reset step leaves, in every state.  That it leaves the model's own fields `agenda` and `reads`
alone is the model's choice (assumptions 4 and 6), as is the parameters' place in the state (assumption 1). -/
def Obligations.ResetStepLeavesResetValues : Prop :=
  ∀ (s : State) (rest : List Turn), s.agenda = .host .reset :: rest →
    ∃ (t : State) (k : Nat), step s = .next t ∧
      (t.cmd = 0 ∧ t.status.word = 0 ∧ t.srcLen = 0 ∧ t.dstLimit = BitVec.ofNat 32 s.params.dstCap ∧
        t.dstLen = 0 ∧ t.cfgAttempts = 1 ∧ t.cfgRetryDelay = 0 ∧ t.cfgReadTimeout = 0 ∧ t.attemptIdx = 0 ∧
        t.xerr = 0 ∧ t.phase = .idle) ∧
      (∀ i, t.src.byteAt i = none ∧ t.dst.byteAt i = none) ∧
      (t.acc = [] ∧ t.req = [] ∧ t.reqLen = 0 ∧ t.latchN = 0 ∧ t.latchD = 0 ∧ t.latchT = 0 ∧ t.tArm = 0 ∧
        t.tFail = 0 ∧ t.lastXerr = 0 ∧ t.lastErr = .eNone ∧ t.wr = none ∧ t.rd = .none) ∧
      (t.params = s.params ∧ t.now = s.now ∧ t.reads = s.reads ∧ t.agenda = rest) ∧
      (s.wr = none → t.txlog = s.txlog ∧
        t.hist = s.hist ++ (if s.rd = .pending then [.readCancel] else [])) ∧
      (∀ r, s.wr = some r → k ≤ r.length ∧ t.txlog = s.txlog ++ r.take k ∧
        t.hist = s.hist ++ (if s.rd = .pending then [.readCancel] else []) ++ [.writeAbandon k])

/-- The invariant holds after reset. -/
def Obligations.InvariantAtReset : Prop := State.reset.Inv ∧ State.reset.codeOk

/-! ### Encoding -/

/-- R91: a word selects a command exactly when it is that command's OPC zero-extended, and the encoder gives that word. -/
def Obligations.WordSelectsCommandExactly : Prop :=
  (∀ w : Word,
    (decode w = .ok .encode ↔ w = 0x00000001) ∧ (decode w = .ok .decode ↔ w = 0x00000002) ∧
    (decode w = .ok .checksum ↔ w = 0x00000003) ∧ (decode w = .ok .encodeFrame ↔ w = 0x00000004) ∧
    (decode w = .ok .decodeFrame ↔ w = 0x00000005) ∧ (decode w = .ok .exchange ↔ w = 0x00000006)) ∧
  (∀ (w : Word) (i : Instr), decode w = .ok i ↔ w = encode i)

/-- R91: the six words, bit by bit. -/
def Obligations.SpecWordsDecode : Prop :=
  decode 0b00000000000000000000000000000001#32 = .ok .encode ∧
  decode 0b00000000000000000000000000000010#32 = .ok .decode ∧
  decode 0b00000000000000000000000000000011#32 = .ok .checksum ∧
  decode 0b00000000000000000000000000000100#32 = .ok .encodeFrame ∧
  decode 0b00000000000000000000000000000101#32 = .ok .decodeFrame ∧
  decode 0b00000000000000000000000000000110#32 = .ok .exchange

/-- R92: every other accepted word completes with E_ILLEGAL_CMD, reads nothing and leaves DST alone. -/
def Obligations.IllegalWordCompletes : Prop :=
  ∀ (s : State) (rest : List Turn), s.agenda = .core .exec :: rest → s.phase = .exec →
    (s.cmd.extractLsb' 8 24 ≠ 0 ∨ s.cmd.extractLsb' 0 8 = 0 ∨ 7 ≤ (s.cmd.extractLsb' 0 8).toNat) →
    step s = .next (State.recorded { s with agenda := rest } s.draws .eIllegalCmd 0 0 s.dst)

/-- The EXEC step runs the decoded command, when its turn comes, and when the block moves by itself (the last two parts rest
on assumption 5, the model's choice). -/
def Obligations.StepRunsDecodedCommand : Prop :=
  ∀ (s : State) (i : Instr), s.phase = .exec → decode s.cmd = .ok i →
    (∀ rest, s.agenda = .core .exec :: rest → step s = exec i { s with agenda := rest }) ∧
    (∀ rest, s.agenda = .own :: rest → step s = exec i { s with agenda := rest }) ∧
    (s.agenda = [] → step s = exec i s)

/-- A word placed as the next command is the word the next step runs (that it is placed by a CMD write is the model's choice,
assumption 8). -/
def Obligations.PlacedWordRuns : Prop :=
  ∀ (s : State) (i : Instr),
    step (s.withFetchWord 32 (encode i).toNat) =
      exec i { s with
        cmd := encode i, status := { busy := true, done := false, err := false, errcode := .eNone }
        dstLen := 0, attemptIdx := 0, xerr := 0, phase := .exec }

/-! ### The register file and the buffers -/

/-- R25: a CMD write is accepted when BUSY = 0 and ignored when BUSY = 1; CMD reads back. -/
def Obligations.CmdWriteStartsCommand : Prop :=
  ∀ (s : State) (rest : List Turn) (w : Word), s.agenda = .host (.regWrite 0x00 w) :: rest →
    (s.status.busy = false → step s = .next { s with
      agenda := rest, cmd := w, status := { busy := true, done := false, err := false, errcode := .eNone }
      dstLen := 0, attemptIdx := 0, xerr := 0, phase := .exec }) ∧
    (s.status.busy = true → step s = .next { s with agenda := rest }) ∧
    regRead 0x00 s = s.cmd

/-- R24, R39: what a read of each offset returns, recorded for the host and with no other effect. -/
def Obligations.RegisterReads : Prop :=
  ∀ (s : State) (rest : List Turn) (off : Nat), s.agenda = .host (.regRead off) :: rest →
    ∃ w : Word, step s = .next { s with agenda := rest, reads := s.reads ++ [.word w] } ∧
      (off = 0x00 → w = s.cmd) ∧
      (off = 0x04 → w = s.status.word) ∧
      (off = 0x08 → w = s.srcLen) ∧
      (off = 0x0C → w = s.dstLimit) ∧
      (off = 0x10 → w = s.dstLen) ∧
      (off = 0x14 → w = s.cfgAttempts) ∧
      (off = 0x18 → w = s.cfgRetryDelay) ∧
      (off = 0x1C → w = s.cfgReadTimeout) ∧
      (off = 0x20 → w = s.attemptIdx) ∧
      (off = 0x24 → w = s.xerr) ∧
      (off = 0x28 → w = s.phase.word) ∧
      (off % 4 ≠ 0 ∨ 0x2C ≤ off → w = 0)

/-- R26 to R29, R37: the bits of STATUS, and the value of every phase. -/
def Obligations.StatusAndPhaseBits : Prop :=
  (∀ st : Status,
    st.word.getLsbD 0 = st.busy ∧ st.word.getLsbD 1 = st.done ∧ st.word.getLsbD 2 = st.err ∧
    st.word.extractLsb' 3 5 = 0 ∧ st.word.extractLsb' 8 8 = st.errcode.code ∧ st.word.extractLsb' 16 16 = 0) ∧
  (∀ p : Phase, p.word.extractLsb' 3 29 = 0 ∧ p.word.extractLsb' 0 3 = p.code) ∧
  (Phase.idle.code = 0 ∧ Phase.exec.code = 1 ∧ Phase.write.code = 2 ∧ Phase.read.code = 3 ∧ Phase.delay.code = 4)

/-- R231, R232: the number of every error code; distinct codes have distinct numbers, and the high nibble names the
category. -/
def Obligations.ErrorCodeNumbers : Prop :=
  (ErrCode.eNone.code = 0x00 ∧ ErrCode.eIllegalCmd.code = 0x01 ∧ ErrCode.eEncDstTooSmall.code = 0x10 ∧
    ErrCode.eDecSrcTooShort.code = 0x11 ∧ ErrCode.eDecDstTooShort.code = 0x12 ∧ ErrCode.eDecZeroCode.code = 0x13 ∧
    ErrCode.eMsgTooShort.code = 0x20 ∧ ErrCode.eChecksumMismatch.code = 0x21 ∧
    ErrCode.eMalformedRequest.code = 0x30 ∧ ErrCode.eWrite.code = 0x31 ∧ ErrCode.eShortWrite.code = 0x32 ∧
    ErrCode.eNoData.code = 0x33 ∧ ErrCode.eTimeout.code = 0x34 ∧ ErrCode.eRead.code = 0x35 ∧
    ErrCode.eRxOverflow.code = 0x36) ∧
  (∀ e f : ErrCode, e.code = f.code → e = f) ∧
  (∀ e : ErrCode,
    (e.code.toNat / 16 = 1 ↔
      e ∈ [.eEncDstTooSmall, .eDecSrcTooShort, .eDecDstTooShort, .eDecZeroCode]) ∧
    (e.code.toNat / 16 = 2 ↔ e ∈ [.eMsgTooShort, .eChecksumMismatch]) ∧
    (e.code.toNat / 16 = 3 ↔
      e ∈ [.eMalformedRequest, .eWrite, .eShortWrite, .eNoData, .eTimeout, .eRead, .eRxOverflow]))

/-- R30 to R34: a write of each read/write register stores its legal value and changes nothing else. -/
def Obligations.RegisterWritesClamp : Prop :=
  ∀ (s : State) (rest : List Turn) (off : Nat) (v : Word),
    s.agenda = .host (.regWrite off v) :: rest → s.params.valid = true → s.status.busy = false →
    (off = 0x08 → ∃ w : Word, step s = .next { s with agenda := rest, srcLen := w } ∧
      w.toNat = min v.toNat s.params.srcCap) ∧
    (off = 0x0C → ∃ w : Word, step s = .next { s with agenda := rest, dstLimit := w } ∧
      w.toNat = min v.toNat s.params.dstCap) ∧
    (off = 0x14 → ∃ w : Word, step s = .next { s with agenda := rest, cfgAttempts := w } ∧
      w.toNat = max v.toNat 1) ∧
    (off = 0x18 → step s = .next { s with agenda := rest, cfgRetryDelay := v }) ∧
    (off = 0x1C → step s = .next { s with agenda := rest, cfgReadTimeout := v })

/-- R24: writes to a read-only register are ignored. -/
def Obligations.ReadOnlyWritesIgnored : Prop :=
  ∀ (s : State) (rest : List Turn) (off : Nat) (v : Word),
    s.agenda = .host (.regWrite off v) :: rest → off ∈ [0x04, 0x10, 0x20, 0x24, 0x28] →
    step s = .next { s with agenda := rest }

/-- R39, R64: an access out of range reads 0 and writes nothing, whatever BUSY is. -/
def Obligations.OutOfRangeAccessesHarmless : Prop :=
  ∀ (s : State) (rest : List Turn),
    (∀ off, off % 4 ≠ 0 ∨ 0x2C ≤ off →
      (s.agenda = .host (.regRead off) :: rest →
        step s = .next { s with agenda := rest, reads := s.reads ++ [.word 0] }) ∧
      (∀ v, s.agenda = .host (.regWrite off v) :: rest → step s = .next { s with agenda := rest })) ∧
    (∀ i, s.params.srcCap ≤ i →
      (s.agenda = .host (.srcRead i) :: rest →
        step s = .next { s with agenda := rest, reads := s.reads ++ [.byte 0] }) ∧
      (∀ b, s.agenda = .host (.srcWrite i b) :: rest → step s = .next { s with agenda := rest })) ∧
    (∀ i, s.params.dstCap ≤ i → s.agenda = .host (.dstRead i) :: rest →
      step s = .next { s with agenda := rest, reads := s.reads ++ [.byte 0] })

/-- R65: while BUSY = 1 every host write is ignored. -/
def Obligations.BusyWritesIgnored : Prop :=
  ∀ (s : State) (rest : List Turn), s.status.busy = true →
    (∀ off v, s.agenda = .host (.regWrite off v) :: rest → step s = .next { s with agenda := rest }) ∧
    (∀ i b, s.agenda = .host (.srcWrite i b) :: rest → step s = .next { s with agenda := rest })

/-- R62: a write of SRC with BUSY = 0 changes the byte at its index and no other byte; out of range it is ignored. -/
def Obligations.SrcWriteStoresByte : Prop :=
  ∀ (s : State) (rest : List Turn) (i : Nat) (b : Byte),
    s.agenda = .host (.srcWrite i b) :: rest → s.status.busy = false →
    (i < s.params.srcCap → ∃ m : Memory, step s = .next { s with agenda := rest, src := m } ∧
      ∀ j, m.byteAt j = if j = i then some b else s.src.byteAt j) ∧
    (s.params.srcCap ≤ i → step s = .next { s with agenda := rest })

/-- R40, R62, R64, R66: what the host's reads of SRC and DST return: the defined byte, a fresh draw, or 0 out of range. -/
def Obligations.BufferReads : Prop :=
  ∀ (s : State) (rest : List Turn) (i : Nat),
    let byte (b : Byte) : State := { s with agenda := rest, reads := s.reads ++ [.byte b] }
    let drawn : State := { byte (Config.freeByte s.draws) with draws := s.draws + 1 }
    (s.agenda = .host (.srcRead i) :: rest →
      (s.params.srcCap ≤ i → step s = .next (byte 0)) ∧
      (i < s.params.srcCap → (∀ b, s.src.byteAt i = some b → step s = .next (byte b)) ∧
        (s.src.byteAt i = none → step s = .next drawn))) ∧
    (s.agenda = .host (.dstRead i) :: rest →
      (s.params.dstCap ≤ i → step s = .next (byte 0)) ∧
      (i < s.params.dstCap →
        (s.status.busy = true → step s = .next drawn) ∧
        (s.status.busy = false → (∀ b, s.dst.byteAt i = some b → step s = .next (byte b)) ∧
          (s.dst.byteAt i = none → step s = .next drawn))))

/-- R40, R63: the operand is SRC[0..SRC_LEN), each unwritten byte a draw of its own. -/
def Obligations.OperandIsSrcBytes : Prop :=
  ∀ s : State, (operand s).length = s.srcLen.toNat ∧
    ∀ i, i < s.srcLen.toNat →
      (∀ b, s.src.byteAt i = some b → (operand s)[i]? = some b) ∧
      (s.src.byteAt i = none → (operand s)[i]? = some (Config.freeByte
        (s.draws + ((List.range i).filter (fun j => s.src.byteAt j == none)).length)))

/-! ### The commands: each answers a next state, its result and its frame -/

/-- R121. -/
def Obligations.EncodeCompletes : Prop :=
  decode 0x00000001 = .ok .encode ∧ ∀ s : State,
    (s.srcLen = 0 → ∃ m : Memory,
      exec .encode s = .next (s.recorded s.operandDraws .eNone 0 0 m) ∧ m.holds []) ∧
    (s.srcLen ≠ 0 → s.dstLimit.toNat < s.srcLen.toNat + s.srcLen.toNat / 254 + 1 →
      exec .encode s = .next (s.recorded s.operandDraws .eEncDstTooSmall 0 0 s.dst)) ∧
    (s.srcLen ≠ 0 → s.srcLen.toNat + s.srcLen.toNat / 254 + 1 ≤ s.dstLimit.toNat →
      ∃ (m : Memory) (len : Word),
        exec .encode s = .next (s.recorded s.operandDraws .eNone 0 len m) ∧
        len.toNat = (cobsEncode (operand s)).length ∧ m.holds (cobsEncode (operand s)))

/-- R123. -/
def Obligations.DecodeCompletes : Prop :=
  decode 0x00000002 = .ok .decode ∧ ∀ s : State,
    (∀ out, cobsDecode (operand s) s.dstLimit.toNat = .ok out →
      ∃ (m : Memory) (len : Word),
        exec .decode s = .next (s.recorded s.operandDraws .eNone 0 len m) ∧
        len.toNat = out.length ∧ out.length ≤ s.dstLimit.toNat ∧ m.holds out) ∧
    (∀ e, cobsDecode (operand s) s.dstLimit.toNat = .error e →
      e ∈ [.eDecZeroCode, .eDecSrcTooShort, .eDecDstTooShort] ∧
      ∃ m : Memory, exec .decode s = .next (s.recorded s.operandDraws e 0 0 m) ∧ m.holds [])

/-- R151. -/
def Obligations.ChecksumCompletes : Prop :=
  decode 0x00000003 = .ok .checksum ∧ ∀ s : State, ∃ m : Memory,
    exec .checksum s = .next (s.recorded s.operandDraws .eNone 0 2 m) ∧ m.holds (checksum16 (operand s))

/-- R161. -/
def Obligations.EncodeFrameCompletes : Prop :=
  decode 0x00000004 = .ok .encodeFrame ∧ ∀ s : State, s.params.valid = true → s.srcLen.toNat ≤ s.params.srcCap →
    ∃ (m : Memory) (len : Word),
      exec .encodeFrame s = .next (s.recorded s.operandDraws .eNone 0 len m) ∧
      len.toNat = (frameEncode (operand s)).length ∧ len.toNat ≤ s.params.dstCap ∧
      m.holds (frameEncode (operand s))

/-- R164. -/
def Obligations.DecodeFrameCompletes : Prop :=
  decode 0x00000005 = .ok .decodeFrame ∧ ∀ s : State,
    (∀ p, frameDecode (operand s) = .ok p →
      ∃ (m : Memory) (len : Word),
        exec .decodeFrame s = .next (s.recorded s.operandDraws .eNone 0 len m) ∧
        len.toNat = p.length ∧ p.length ≤ s.srcLen.toNat ∧ m.holds p) ∧
    (∀ e, frameDecode (operand s) = .error e →
      e ∈ [.eDecZeroCode, .eDecSrcTooShort, .eMsgTooShort, .eChecksumMismatch] ∧
      ∃ m : Memory, exec .decodeFrame s = .next (s.recorded s.operandDraws e 0 0 m) ∧ m.holds [])

/-- R181 to R183: X_START checks the last byte, latches and begins the first attempt. -/
def Obligations.ExchangeStarts : Prop :=
  ∀ s : State,
    ((operand s).getLast? = some 0 → exec .exchange s = .next { s with
      draws := s.operandDraws
      reqLen := s.srcLen, req := operand s
      latchN := s.cfgAttempts, latchD := s.cfgRetryDelay, latchT := s.cfgReadTimeout
      lastErr := .eNone, lastXerr := 0
      attemptIdx := s.attemptIdx + 1, acc := [], tArm := s.now
      wr := some (operand s), hist := s.hist ++ [.writeReq (operand s)], phase := .write }) ∧
    ((operand s).getLast? ≠ some 0 → exec .exchange s =
      .next (State.recorded { s with reqLen := s.srcLen, req := operand s }
        s.operandDraws .eMalformedRequest 0 0 s.dst))

/-- R71: no step but a host write of SRC and a Reset changes SRC. -/
def Obligations.OnlyHostChangesSrc : Prop :=
  ∀ s t : State, step s = .next t →
    (∀ i b rest, s.agenda ≠ .host (.srcWrite i b) :: rest) → (∀ rest, s.agenda ≠ .host .reset :: rest) →
    t.src = s.src

/-- R72: the result of a command depends on its inputs alone.  A codec, checksum or frame command runs in one step.  An
EXCHANGE runs from its CMD write on, through any steps of the Core, the Transport and the Clock: two idle states that agree
on its inputs, and on nothing else, show the same record, result, requests and wire bytes after every number of steps.  (The
count of draws stands for the values of unwritten bytes and of choices, and the agenda for the transport's answers:
assumptions 3, 4 and 5.) -/
def Obligations.ResultDependsOnInputsOnly : Prop :=
  (∀ (s u : State) (i : Instr), i ≠ .exchange →
    u.srcLen = s.srcLen → (i = .encode ∨ i = .decode → u.dstLimit = s.dstLimit) → u.draws = s.draws →
    (∀ j, j < s.srcLen.toNat → u.src.byteAt j = s.src.byteAt j) →
    ∃ s' u' : State, exec i s = .next s' ∧ exec i u = .next u' ∧
      u'.status = s'.status ∧ u'.xerr = s'.xerr ∧ u'.dstLen = s'.dstLen ∧
      ∀ j, j < s'.dstLen.toNat → u'.dst.byteAt j = s'.dst.byteAt j) ∧
  (∀ (s u : State) (rest : List Turn) (k : Nat),
    s.agenda = .host (.regWrite 0x00 (encode .exchange)) :: rest → u.agenda = s.agenda →
    (∀ t ∈ rest, t.environment = true) → s.status.busy = false → u.status.busy = false →
    u.params = s.params → u.srcLen = s.srcLen → u.cfgAttempts = s.cfgAttempts →
    u.cfgRetryDelay = s.cfgRetryDelay → u.cfgReadTimeout = s.cfgReadTimeout → u.draws = s.draws →
    (∀ j, j < s.srcLen.toNat → u.src.byteAt j = s.src.byteAt j) →
    ∃ (s' u' : State) (bs : List Byte) (es : List PortEvent),
      Sys2Proof.core.run (k + 1) s = .next s' ∧ Sys2Proof.core.run (k + 1) u = .next u' ∧
      u'.status = s'.status ∧ u'.xerr = s'.xerr ∧ u'.dstLen = s'.dstLen ∧ u'.attemptIdx = s'.attemptIdx ∧
      u'.phase = s'.phase ∧ s'.txlog = s.txlog ++ bs ∧ u'.txlog = u.txlog ++ bs ∧
      s'.hist = s.hist ++ es ∧ u'.hist = u.hist ++ es ∧
      ∀ j, j < s'.dstLen.toNat → u'.dst.byteAt j = s'.dst.byteAt j)

/-! ### The codec, the checksum and the frame -/

/-- R120: the stuffing function is the spec's loop over placeholder code bytes. -/
def Obligations.StuffingMatchesPseudocode : Prop :=
  ∀ s : List Byte, cobsEncode s = cobsEncodeIndexed s

/-- R122: the unstuffing function is the spec's loop over indices. -/
def Obligations.UnstuffingMatchesPseudocode : Prop :=
  ∀ (s : List Byte) (limit : Nat), cobsDecode s limit = cobsDecodeIndexed s limit

/-- R94 and the length law of R124. -/
def Obligations.StuffedLengthBounds : Prop :=
  encodedCapacity 900 = 904 ∧ encodedCapacity 0 = 1 ∧ cobsEncode [] = [] ∧
  ∀ s : List Byte, s ≠ [] →
    s.length + 1 ≤ (cobsEncode s).length ∧ (cobsEncode s).length ≤ s.length + s.length / 254 + 1

/-- R125, R95: the output is a sequence of blocks, no byte of it zero, the last code at most 0xFE. -/
def Obligations.StuffedOutputIsBlocks : Prop :=
  ∀ s : List Byte, (0 : Byte) ∉ cobsEncode s ∧
    (s ≠ [] → ∃ (runs : List (List Byte)) (last : List Byte),
      cobsEncode s =
        (runs.map (fun r => BitVec.ofNat 8 (r.length + 1) :: r)).flatten ++
          BitVec.ofNat 8 (last.length + 1) :: last ∧
      (∀ r ∈ runs, r.length ≤ 254) ∧ last.length ≤ 253)

/-- R126: unstuffing a stuffed sequence gives it back. -/
def Obligations.CodecRoundTrip : Prop :=
  (∀ (s : List Byte) (limit : Nat), s.length + 1 ≤ limit → cobsDecode (cobsEncode s) limit = .ok s) ∧
  (∀ limit, cobsDecode (cobsEncode []) limit = .ok []) ∧
  (∀ (s : List Byte) (limit : Nat), (cobsEncode s).length ≤ limit → cobsDecode (cobsEncode s) limit = .ok s)

/-- R127: with room for its input, unstuffing never lacks room, and it always shortens. -/
def Obligations.UnstuffingBound : Prop :=
  ∀ (s : List Byte) (limit : Nat),
    (s.length ≤ limit → cobsDecode s limit ≠ .error .eDecDstTooShort) ∧
    (∀ out, cobsDecode s limit = .ok out → s ≠ [] → out.length ≤ s.length - 1)

/-- R152: the closed form of the two sums and what leaves them alone. -/
def Obligations.ChecksumLaws : Prop :=
  (∀ s : List Byte, checksum16 s =
    [BitVec.ofNat 8 ((s.map BitVec.toNat).sum % 255), BitVec.ofNat 8 (weightedSum s % 255)]) ∧
  (∀ s t : List Byte, checksum16 (s ++ 0x00 :: t) = checksum16 (s ++ 0xFF :: t)) ∧
  (∀ s : List Byte, checksum16 (0x00 :: s) = checksum16 s) ∧
  (∀ s : List Byte, ∀ b ∈ checksum16 s, b.toNat ≤ 0xFE)

/-- R162: the length of a stuffed frame, and that it fits DST. -/
def Obligations.FrameLengthFits : Prop :=
  ∀ p : List Byte,
    p.length + 3 ≤ (frameEncode p).length ∧
    (frameEncode p).length ≤ (p.length + 2) + (p.length + 2) / 254 + 1 ∧
    (∀ par : Params, par.valid = true → p.length ≤ par.srcCap → (frameEncode p).length ≤ par.dstCap)

/-- R166: a payload is at least three bytes shorter than its stuffed frame. -/
def Obligations.PayloadBound : Prop :=
  ∀ s p : List Byte, frameDecode s = .ok p → s ≠ [] ∧ p.length + 3 ≤ s.length

/-- R167: decoding an encoded frame gives the payload back. -/
def Obligations.FrameRoundTrip : Prop :=
  ∀ p : List Byte, frameDecode (frameEncode p) = .ok p

/-- R168, case 1: a changed data byte of a frame is detected, the change of a payload 0xFF to 0x00 apart. -/
def Obligations.TamperedDataByteDetected : Prop :=
  ∀ (p : List Byte) (j : Nat) (v : Byte),
    j < (frameEncode p).length →
    codeByteAt (frameEncode p).length (frameEncode p) j = false →
    v ≠ (frameEncode p).getD j 0 →
    (¬((frameEncode p).getD j 0 = 0xFF ∧ v = 0x00) →
      frameDecode ((frameEncode p).set j v) = .error .eChecksumMismatch) ∧
    ((frameEncode p).getD j 0 = 0xFF → v = 0x00 →
      ∃ q, q ≠ p ∧ frameDecode ((frameEncode p).set j v) = .ok q)

/-! ### The steps of an exchange -/

/-- R184, R185: an answered write. -/
def Obligations.WriteAnswered : Prop :=
  ∀ (s : State) (rest : List Turn) (r : List Byte) (n : Nat) (e : Option TransportError),
    s.agenda = .transport (.writeDone n e) :: rest → s.phase = .write → s.wr = some r → n ≤ r.length →
    let u : State := { s with
      agenda := rest, txlog := s.txlog ++ r.take n, hist := s.hist ++ [.writeDone n e], wr := none }
    (∀ err w, e = some err → s.params.xerr[err]? = some w → step s = .next (attemptFail .eWrite w u)) ∧
    (e = none → n ≠ s.reqLen.toNat → step s = .next (attemptFail .eShortWrite 0 u)) ∧
    (e = none → n = s.reqLen.toNat → step s = .next { u with
      rd := .pending, hist := s.hist ++ [.writeDone n e] ++ [.readReq], phase := .read })

/-- R186: an answered read waits to be observed. -/
def Obligations.ReadAnswered : Prop :=
  ∀ (s : State) (rest : List Turn) (r : ReadAnswer),
    s.agenda = .transport (.readDone r) :: rest → s.phase = .read → s.rd = .pending →
    ((∃ bs, r = .chunk bs ∧ bs.length ≤ s.params.rdChunk) ∨
      (∃ e, r = .rdErr e ∧ e < s.params.xerr.length)) →
    step s = .next { s with agenda := rest, rd := .completed r, hist := s.hist ++ [.readDone r] }

/-- R187 to R190: what observing each kind of answer does. -/
def Obligations.ObserveEffect : Prop :=
  ∀ (s : State) (rest : List Turn) (r : ReadAnswer),
    s.agenda = .core .observe :: rest → s.phase = .read → s.rd = .completed r →
    let u : State := { s with agenda := rest, rd := .none }
    (∀ e w, r = .rdErr e → s.params.xerr[e]? = some w → step s = .next (attemptFail .eRead w u)) ∧
    (r = .chunk [] → s.acc = [] → step s = .next (attemptFail .eNoData 0 u)) ∧
    (r = .chunk [] → s.acc ≠ [] → step s = .next { u with rd := .pending, hist := s.hist ++ [.readReq] }) ∧
    (∀ bs, r = .chunk bs → bs ≠ [] →
      let before := bs.takeWhile (fun b => b != 0)
      (s.acc.length ≤ s.params.rxCap → s.params.rxCap < s.acc.length + before.length →
        step s = .next (attemptFail .eRxOverflow 0 u)) ∧
      (s.acc.length + before.length ≤ s.params.rxCap → before = bs →
        step s = .next { u with acc := s.acc ++ bs, rd := .pending, hist := s.hist ++ [.readReq] }) ∧
      (s.acc.length + before.length ≤ s.params.rxCap → before ≠ bs →
        (∀ e, frameDecode (s.acc ++ before) = .error e → step s = .next (attemptFail e 0 u)) ∧
        (∀ p, frameDecode (s.acc ++ before) = .ok p → s.params.rxCap ≤ 2 ^ 32 - 1 →
          ∃ (m : Memory) (len : Word), step s = .next (u.recorded s.draws .eNone 0 len m) ∧
            len.toNat = p.length ∧ m.holds p)))

/-- R191: X_TIMEOUT needs a fired deadline, cancels a pending read and fails the attempt.  That its turn passes without effect
where it is not enabled is the model's choice (assumption 4). -/
def Obligations.TimeoutEffect : Prop :=
  ∀ (s : State) (rest : List Turn), s.agenda = .core .timeout :: rest →
    (s.phase = .read → s.latchT.toNat ≤ s.now - s.tArm → step s = .next (attemptFail .eTimeout 0 { s with
      agenda := rest, rd := .none, hist := s.hist ++ (if s.rd = .pending then [.readCancel] else []) })) ∧
    (s.phase ≠ .read ∨ s.now - s.tArm < s.latchT.toNat → step s = .next { s with agenda := rest })

/-- R193, R195, R198: a failed attempt ends the exchange with its own error when the budget is exhausted, and waits
for the next attempt otherwise. -/
def Obligations.AttemptFailureUsesBudget : Prop :=
  ∀ (s : State) (e : ErrCode) (info : Word), e ≠ .eNone → e.keepsDst = false →
    (s.attemptIdx = s.latchN → ∃ m : Memory, m.holds [] ∧
      attemptFail e info s =
        State.recorded { s with lastErr := e, lastXerr := info } s.draws e info 0 m) ∧
    (s.attemptIdx ≠ s.latchN → attemptFail e info s = { s with
      lastErr := e, lastXerr := info, acc := [], tFail := s.now, phase := .delay })

/-- R192: when both are enabled, observing and timing out are both steps; the one taken first wins, and an observation that
does not end the attempt leaves the timeout enabled. -/
def Obligations.DeadlineRaceBothOrders : Prop :=
  ∀ (s : State) (rest : List Turn) (r : ReadAnswer),
    s.phase = .read → s.rd = .completed r → s.latchT.toNat ≤ s.now - s.tArm →
    (s.agenda = .core .observe :: rest → step s = .next (observe r { s with agenda := rest })) ∧
    (s.agenda = .core .timeout :: rest → step s = .next (timeout { s with agenda := rest })) ∧
    ((timeout s).rd = .none ∧ (timeout s).phase ≠ .read) ∧
    (∀ r', (observe r s).rd ≠ .completed r') ∧
    ((observe r s).phase = .read → coreEnabled .timeout (observe r s) = true)

/-- R194: X_DELAY_END, enabled D ticks after the failure, begins the next attempt, and no other step but Reset leaves
PHASE = DELAY. -/
def Obligations.DelayLeftOnlyWhenOver : Prop :=
  ∀ s : State, s.phase = .delay → s.status.busy = true →
    (∀ rest, s.agenda = .core .delayEnd :: rest → s.latchD.toNat ≤ s.now - s.tFail →
      step s = .next { s with
        agenda := rest, attemptIdx := s.attemptIdx + 1, acc := [], tArm := s.now, wr := some s.req
        hist := s.hist ++ [.writeReq s.req], phase := .write }) ∧
    (∀ t, step s = .next t → t.phase ≠ .delay →
      ((∃ rest, s.agenda = .host .reset :: rest) ∧ t.phase = .idle) ∨
      (s.latchD.toNat ≤ s.now - s.tFail ∧ t.phase = .write ∧ t.attemptIdx = s.attemptIdx + 1))

/-- R203: an attempt fails with E_TIMEOUT only once the deadline has fired. -/
def Obligations.TimeoutNotEarly : Prop :=
  ∀ s t : State, s.phase = .read → step s = .next t →
    (t.phase = .delay ∧ t.lastErr = .eTimeout ∨ t.phase = .idle ∧ t.status.errcode = .eTimeout) →
    s.latchT.toNat ≤ s.now - s.tArm

/-- R200: in PHASE = WRITE no Core step is enabled, and nothing but the transport's answer and Reset ends the wait, however
many ticks pass. -/
def Obligations.WriteWaitsForTransport : Prop :=
  ∀ s : State, s.phase = .write → s.status.busy = true →
    (∀ c : CoreStep, coreEnabled c s = false) ∧
    ∀ t, step s = .next t → (∀ n e rest, s.agenda ≠ .transport (.writeDone n e) :: rest) →
      (∀ rest, s.agenda ≠ .host .reset :: rest) →
      t.phase = .write ∧ t.wr = s.wr ∧ t.status = s.status ∧ t.tArm = s.tArm ∧ s.now ≤ t.now

/-- R191, R201: a read that is never answered ends in a timeout, at the deadline when the block moves by itself (that an
enabled Core step comes before the next TICK is the model's choice, assumption 5). -/
def Obligations.UnansweredReadTimesOut : Prop :=
  ∀ (s : State), s.phase = .read → s.rd = .pending → s.agenda = [] → s.tArm ≤ s.now →
    let wait := s.tArm + s.latchT.toNat - s.now
    Sys2Proof.core.run (wait + 1) s = .next (attemptFail .eTimeout 0 { s with
      now := s.now + wait, rd := .none, hist := s.hist ++ [.readCancel] })

/-- R197, R189, R190, R196: a response that arrives in any chunks, whatever follows its delimiter, gives its payload. -/
def Obligations.ExchangeDeliversPayload : Prop :=
  ∀ (s : State) (r p g last : List Byte) (chunks : List (List Byte)),
    s.phase = .write → s.wr = some r → r.length = s.reqLen.toNat → s.acc = [] →
    (frameEncode p).length ≤ s.params.rxCap → s.params.rxCap ≤ 2 ^ 32 - 1 →
    (∀ c ∈ chunks, c ≠ [] ∧ c.length ≤ s.params.rdChunk) → last.length ≤ s.params.rdChunk →
    chunks.flatten ++ last = frameEncode p ++ 0 :: g → chunks.flatten.length ≤ (frameEncode p).length →
    s.agenda = .transport (.writeDone r.length none) ::
      ((chunks ++ [last]).map
        (fun c => [Turn.transport (.readDone (.chunk c)), Turn.core .observe])).flatten →
    ∃ t : State, Sys2Proof.core.run (1 + 2 * (chunks.length + 1)) s = .next t ∧
      t.phase = .idle ∧ t.status = { busy := false, done := true, err := false, errcode := .eNone } ∧
      t.xerr = 0 ∧ t.dstLen.toNat = p.length ∧ t.dst.holds p ∧ t.attemptIdx = s.attemptIdx ∧
      t.txlog = s.txlog ++ r ∧ t.src = s.src

/-- R202, R195, R184: when every write answers with an error, an exchange with N attempts writes exactly N times and reports
the error of the last write. -/
def Obligations.FailingWritesUseWholeBudget : Prop :=
  ∀ (s : State) (k e : Nat) (w : Word),
    s.phase = .exec → s.cmd = encode .exchange → s.attemptIdx = 0 → s.cfgAttempts ≠ 0 →
    (operand s).getLast? = some 0 → k ≤ s.srcLen.toNat → s.params.xerr[e]? = some w →
    s.agenda = .core .exec ::
      (List.replicate s.cfgAttempts.toNat
        (Turn.transport (.writeDone k (some e)) ::
          (List.replicate s.cfgRetryDelay.toNat Turn.tick ++ [Turn.core .delayEnd]))).flatten →
    ∃ t : State,
      Sys2Proof.core.run (1 + s.cfgAttempts.toNat * (s.cfgRetryDelay.toNat + 2)) s = .next t ∧
      t.phase = .idle ∧ t.status = { busy := false, done := true, err := true, errcode := .eWrite } ∧
      t.xerr = w ∧ t.attemptIdx = s.cfgAttempts ∧
      writeCount t.hist = writeCount s.hist + s.cfgAttempts.toNat

/-- R202: outside an accepted CMD write and Reset, a step appends as many write requests as it begins attempts. -/
def Obligations.WriteRequestsAreAttempts : Prop :=
  ∀ s t : State, s.Inv → step s = .next t →
    (∀ w rest, s.agenda = .host (.regWrite 0x00 w) :: rest → s.status.busy = true) →
    (∀ rest, s.agenda ≠ .host .reset :: rest) →
    writeCount t.hist + s.attemptIdx.toNat = writeCount s.hist + t.attemptIdx.toNat

/-- R233: P_XERR is injective and never 0 (an error is an index of the table P_XERR by the model's choice, assumption 2). -/
def Obligations.TransportErrorWordsDistinct : Prop :=
  ∀ (p : Params) (e f : TransportError), p.valid = true → e < p.xerr.length → f < p.xerr.length →
    xerrWord p e ≠ 0 ∧ (xerrWord p e = xerrWord p f → e = f)

/-! ### The whole machine -/

/-- R47 and the ranges and latches: every step keeps the invariant. -/
def Obligations.StepKeepsInvariant : Prop :=
  ∀ s t : State, s.Inv → step s = .next t → t.Inv

/-- R234: no command completes with a code that is impossible for it. -/
def Obligations.CompletionCodesPossible : Prop :=
  ∀ s t : State, s.Inv → s.codeOk → step s = .next t → t.codeOk

/-- R230: nothing is fatal; every step of every state answers a next state. -/
def Obligations.NoStepIsFatal : Prop :=
  (∀ s : State, ∃ t, step s = .next t) ∧ (∀ (i : Instr) (s : State), ∃ t, exec i s = .next t)

/-- R23, R44, R245, R273: the clock only ticks, the records only grow, and the parameters stay (`reads`, `draws` and
`params` are the model's own fields, assumptions 1, 3 and 6). -/
def Obligations.EnvironmentOnlyGrows : Prop :=
  ∀ s t : State, step s = .next t →
    (t.now = s.now ∨ t.now = s.now + 1) ∧ (∃ bs, t.txlog = s.txlog ++ bs) ∧ (∃ es, t.hist = s.hist ++ es) ∧
    (∃ rs, t.reads = s.reads ++ rs) ∧ s.draws ≤ t.draws ∧ t.params = s.params

/-- R205: at most one request is at the transport. -/
def Obligations.OneRequestAtATime : Prop :=
  ∀ s t : State, s.Inv → step s = .next t → ¬(t.wr.isSome = true ∧ t.rd ≠ .none)

/-- R75, R66: the result stays readable until the next accepted CMD write, Reset or host write aside. -/
def Obligations.ResultStaysUntilNextCommand : Prop :=
  ∀ s t : State, s.Inv → s.phase = .idle → step s = .next t →
    (∀ w rest, s.agenda ≠ .host (.regWrite 0x00 w) :: rest) → (∀ rest, s.agenda ≠ .host .reset :: rest) →
    t.status = s.status ∧ t.dstLen = s.dstLen ∧ t.dst = s.dst ∧ t.xerr = s.xerr ∧
      t.attemptIdx = s.attemptIdx ∧ t.cmd = s.cmd ∧ t.phase = .idle

/-- R101: `poll` reads STATUS and ends only when BUSY is 0; while BUSY is 1 it comes again after one step of another agent
(the order of the steps in between is the model's choice, assumption 10). -/
def Obligations.PollRepeatsWhileBusy : Prop :=
  ∀ (s : State) (rest : List Turn), s.agenda = .poll :: rest →
    (s.status.busy = false → step s = .next { s with
      agenda := rest, reads := s.reads ++ [.word s.status.word] }) ∧
    (s.status.busy = true → ∃ (t : Turn) (rest' : List Turn),
      step s = .next { s with agenda := t :: .poll :: rest', reads := s.reads ++ [.word s.status.word] } ∧
      (t = .own ∧ rest' = rest ∨ rest = t :: rest') ∧ ∀ h : HostStep, t ≠ .host h)

/-- R161, R164, R167 through the buffers: ENCODE_FRAME leaves the stuffed frame in DST, and DECODE_FRAME on those bytes written
back into SRC gives the payload. -/
def Obligations.FrameRoundTripThroughBuffers : Prop :=
  ∀ (s : State) (p : List Byte), s.Inv → s.phase = .idle →
    s.srcLen.toNat = p.length → (∀ i, i < p.length → s.src.byteAt i = p[i]?) →
    (frameEncode p).length ≤ s.params.srcCap →
    s.agenda = [wrTurn .cmd (encode .encodeFrame), .core .exec] ++ wsrcTurns 0 (frameEncode p) ++
      [wrTurn .srcLen (BitVec.ofNat 32 (frameEncode p).length), wrTurn .cmd (encode .decodeFrame), .core .exec] →
    ∃ u t : State, Sys2Proof.core.run 2 s = .next u ∧
      u.status = { busy := false, done := true, err := false, errcode := .eNone } ∧
      u.dstLen.toNat = (frameEncode p).length ∧ u.dst.holds (frameEncode p) ∧
      Sys2Proof.core.run (5 + (frameEncode p).length) s = .next t ∧
      t.status = { busy := false, done := true, err := false, errcode := .eNone } ∧
      t.dstLen.toNat = p.length ∧ t.dst.holds p
end

