-- ==== Sys2Proof/Laws/Codec.lean ====
section
/-! SUPPORT. The loops of the codec, one block at a time. -/

namespace Sys2Proof.Machine

/-! ### Stuffing -/

@[simp] theorem stuff_nil (run : List Byte) : stuff run [] = block run := rfl

@[simp] theorem block_length (run : List Byte) : (block run).length = run.length + 1 := rfl

theorem stuff_zero (run vs : List Byte) : stuff run (0 :: vs) = block run ++ stuff [] vs := by
  simp [stuff]

theorem stuff_full {run : List Byte} {v : Byte} (vs : List Byte) (h : run.length = 253) (hv : v ≠ 0) :
    stuff run (v :: vs) = block (run ++ [v]) ++ stuff [] vs := by
  simp only [stuff, if_neg hv]
  rw [if_pos (by omega)]

theorem stuff_more {run : List Byte} {v : Byte} (vs : List Byte) (h : run.length < 253) (hv : v ≠ 0) :
    stuff run (v :: vs) = stuff (run ++ [v]) vs := by
  simp only [stuff, if_neg hv]
  rw [if_neg (by omega)]

/-- The cases of the stuffing loop: the end, a zero, the 254th non-zero byte in a row, another byte of the run. -/
theorem stuff_induct {P : List Byte → List Byte → Prop}
    (last : ∀ run, run.length ≤ 253 → P run [])
    (zero : ∀ run vs, run.length ≤ 253 → P [] vs → P run (0 :: vs))
    (full : ∀ run v vs, run.length = 253 → v ≠ 0 → P [] vs → P run (v :: vs))
    (more : ∀ run v vs, run.length < 253 → v ≠ 0 → P (run ++ [v]) vs → P run (v :: vs))
    (run vs : List Byte) (h : run.length ≤ 253) : P run vs := by
  induction vs generalizing run with
  | nil => exact last run h
  | cons v vs ih =>
    by_cases hv : v = 0
    · subst hv; exact zero run vs h (ih [] (by simp))
    · rcases Nat.lt_or_eq_of_le h with h | h
      · exact more run v vs h hv (ih _ (by simp only [List.length_append, List.length_singleton]; omega))
      · exact full run v vs h hv (ih [] (by simp))

/-! ### Unstuffing -/

@[simp] theorem unstuff_nil (limit fuel : Nat) (out : List Byte) (phantom : Bool) :
    unstuff limit fuel [] out phantom = .ok (if phantom then out.dropLast else out) := by
  cases fuel <;> rfl

/-- The code byte of a block, as a number. -/
theorem block_code {run : List Byte} (h : run.length ≤ 254) :
    (BitVec.ofNat 8 (run.length + 1)).toNat = run.length + 1 ∧ BitVec.ofNat 8 (run.length + 1) ≠ 0 := by
  have h8 : (BitVec.ofNat 8 (run.length + 1)).toNat = run.length + 1 := by
    rw [BitVec.toNat_ofNat, Nat.mod_eq_of_lt (by omega)]
  refine ⟨h8, fun h0 => ?_⟩
  rw [h0] at h8
  simp at h8

/-- A block with a code below 0xFF stands for its data bytes and a zero. -/
theorem unstuff_block {limit fuel : Nat} {run rest out : List Byte} (phantom : Bool) (hr : run.length ≤ 253)
    (hl : out.length + run.length + 1 ≤ limit) :
    unstuff limit (fuel + 1) (block run ++ rest) out phantom =
      unstuff limit fuel rest (out ++ run ++ [0]) true := by
  obtain ⟨h8, h0⟩ := block_code (run := run) (by omega)
  simp only [block, List.cons_append, unstuff, h8, if_neg h0, List.length_append]
  rw [if_neg (by omega), if_neg (by omega), if_pos (by omega), if_neg (by omega)]
  simp

/-- A block with code 0xFF stands for its 254 data bytes alone. -/
theorem unstuff_boundary {limit fuel : Nat} {run rest out : List Byte} (phantom : Bool) (hr : run.length = 254)
    (hl : out.length + run.length ≤ limit) :
    unstuff limit (fuel + 1) (block run ++ rest) out phantom = unstuff limit fuel rest (out ++ run) false := by
  obtain ⟨h8, h0⟩ := block_code (run := run) (by omega)
  simp only [block, List.cons_append, unstuff, h8, if_neg h0, List.length_append]
  rw [if_neg (by omega), if_neg (by omega), if_neg (by omega)]
  simp

/-- The cases of one pass of the unstuffing loop on a code byte `c`. -/
theorem unstuff_cases (limit fuel : Nat) (c : Byte) (rest out : List Byte) (phantom : Bool) :
    (c = 0 ∧ unstuff limit (fuel + 1) (c :: rest) out phantom = .error .eDecZeroCode) ∨
    (1 ≤ c.toNat ∧ unstuff limit (fuel + 1) (c :: rest) out phantom = .error .eDecSrcTooShort) ∨
    (1 ≤ c.toNat ∧ limit < out.length + c.toNat ∧
      unstuff limit (fuel + 1) (c :: rest) out phantom = .error .eDecDstTooShort) ∨
    (1 ≤ c.toNat ∧ c.toNat ≤ rest.length + 1 ∧ out.length + c.toNat ≤ limit ∧
      unstuff limit (fuel + 1) (c :: rest) out phantom =
        unstuff limit fuel (rest.drop (c.toNat - 1)) (out ++ rest.take (c.toNat - 1) ++ [0]) true) ∨
    (c.toNat = 255 ∧ c.toNat ≤ rest.length + 1 ∧ out.length + (c.toNat - 1) ≤ limit ∧
      unstuff limit (fuel + 1) (c :: rest) out phantom =
        unstuff limit fuel (rest.drop (c.toNat - 1)) (out ++ rest.take (c.toNat - 1)) false) := by
  by_cases h0 : c = 0
  · exact .inl ⟨h0, by simp [unstuff, h0]⟩
  have hc : 1 ≤ c.toNat := by
    rcases Nat.eq_zero_or_pos c.toNat with h | h
    · exact absurd (BitVec.eq_of_toNat_eq (by simpa using h)) h0
    · exact h
  have h255 := c.isLt
  simp only [unstuff, if_neg h0]
  by_cases h1 : rest.length + 1 < c.toNat
  · exact .inr (.inl ⟨hc, if_pos h1⟩)
  rw [if_neg h1]
  by_cases h2 : limit < out.length + (c.toNat - 1)
  · exact .inr (.inr (.inl ⟨hc, by omega, if_pos h2⟩))
  rw [if_neg h2]
  by_cases h3 : c.toNat < 255
  · rw [if_pos h3]
    by_cases h4 : limit < out.length + (c.toNat - 1) + 1
    · exact .inr (.inr (.inl ⟨hc, by omega, if_pos h4⟩))
    · exact .inr (.inr (.inr (.inl ⟨hc, by omega, by omega, if_neg h4⟩)))
  · exact .inr (.inr (.inr (.inr ⟨by omega, by omega, by omega, if_neg h3⟩)))

/-! ### Checksum -/

@[simp] theorem checksum16_length (s : List Byte) : (checksum16 s).length = 2 := rfl

theorem sums_append (s t : List Byte) : sums (s ++ t) = t.foldl sumStep (sums s) := by
  simp [sums]

theorem sumStep_lt (ab : Nat × Nat) (v : Byte) : (sumStep ab v).1 < 255 ∧ (sumStep ab v).2 < 255 :=
  ⟨Nat.mod_lt _ (by decide), Nat.mod_lt _ (by decide)⟩

@[simp] theorem frameOf_length (p : List Byte) : (frameOf p).length = p.length + 2 := by
  simp [frameOf]

end Sys2Proof.Machine
end

