-- ==== Sys2Proof/Laws/Memory.lean ====
section
/-! SUPPORT. The laws of the byte spaces: what a write does to every index, and that every operation keeps the canonical
form. -/

namespace Sys2Proof.Machine

namespace Memory

@[simp] theorem byteAt_nil (i : Nat) : byteAt [] i = none := rfl

theorem byteAt_put (m : Memory) (i j : Nat) (b : Byte) :
    (m.put i b).byteAt j = if j = i then some b else m.byteAt j := by
  induction m with
  | nil => simp [put, byteAt]
  | cons c m ih =>
    obtain ⟨k, c⟩ := c
    simp only [put]
    split
    · simp [byteAt]
    · split
      · rename_i h
        subst h
        simp only [byteAt]
        split <;> rfl
      · simp only [byteAt, ih]
        split
        · rename_i h h' h''
          subst h''
          rw [if_neg (by omega)]
        · rfl

theorem mem_put {m : Memory} {i : Nat} {b : Byte} {c : Host.Cell} (h : c ∈ m.put i b) :
    c = (i, b) ∨ c ∈ m := by
  induction m with
  | nil => simpa [put] using h
  | cons d m ih =>
    obtain ⟨k, d⟩ := d
    simp only [put] at h
    split at h
    · simpa using h
    · split at h
      · rcases List.mem_cons.1 h with h | h
        · exact .inl h
        · exact .inr (List.mem_cons_of_mem _ h)
      · rcases List.mem_cons.1 h with h | h
        · exact .inr (h ▸ List.mem_cons_self)
        · exact (ih h).imp id (List.mem_cons_of_mem _)

theorem put_wf {m : Memory} (h : m.wf) (i : Nat) (b : Byte) : (m.put i b).wf := by
  induction m with
  | nil => simp [put, wf]
  | cons d m ih =>
    obtain ⟨k, d⟩ := d
    obtain ⟨hk, hm⟩ := List.pairwise_cons.1 h
    simp only [put]
    split
    · rename_i hi
      refine List.pairwise_cons.2 ⟨?_, h⟩
      intro c hc
      rcases List.mem_cons.1 hc with rfl | hc
      · exact hi
      · exact Nat.lt_trans hi (hk c hc)
    · split
      · rename_i hi
        subst hi
        exact List.pairwise_cons.2 ⟨fun c hc => hk c hc, hm⟩
      · refine List.pairwise_cons.2 ⟨fun c hc => ?_, ih hm⟩
        rcases mem_put hc with rfl | hc
        · simp only; omega
        · exact hk c hc

theorem put_below {m : Memory} {n i : Nat} (h : m.below n) (hi : i < n) (b : Byte) :
    (m.put i b).below n := by
  intro c hc
  rcases mem_put hc with rfl | hc
  · exact hi
  · exact h c hc

theorem putAll_wf {m : Memory} (h : m.wf) (i : Nat) (bs : List Byte) : (m.putAll i bs).wf := by
  induction bs generalizing m i with
  | nil => exact h
  | cons b bs ih => exact ih (put_wf h i b) (i + 1)

theorem putAll_below {m : Memory} {n : Nat} (h : m.below n) (i : Nat) (bs : List Byte)
    (hi : i + bs.length ≤ n) : (m.putAll i bs).below n := by
  induction bs generalizing m i with
  | nil => exact h
  | cons b bs ih =>
    simp only [List.length_cons] at hi
    exact ih (put_below h (by omega) b) (i + 1) (by omega)

/-- A written sequence reads back byte by byte, and every other index reads as before. -/
theorem byteAt_putAll (m : Memory) (i j : Nat) (bs : List Byte) :
    (m.putAll i bs).byteAt j =
      if i ≤ j ∧ j < i + bs.length then bs[j - i]? else m.byteAt j := by
  induction bs generalizing m i with
  | nil => rw [if_neg (by simp only [List.length_nil]; omega)]; rfl
  | cons b bs ih =>
    simp only [putAll, ih, byteAt_put, List.length_cons]
    by_cases h : j = i
    · subst h; simp
    · by_cases h' : i + 1 ≤ j ∧ j < i + 1 + bs.length
      · rw [if_pos h', if_pos (by omega)]
        obtain ⟨k, rfl⟩ : ∃ k, j = i + (k + 1) := ⟨j - i - 1, by omega⟩
        simp [show i + (k + 1) - (i + 1) = k by omega]
      · rw [if_neg h', if_neg h, if_neg (by omega)]

theorem truncate_wf {m : Memory} (h : m.wf) (n : Nat) : (m.truncate n).wf :=
  List.Pairwise.filter _ h

theorem truncate_below {m : Memory} {k : Nat} (h : m.below k) (n : Nat) : (m.truncate n).below k :=
  fun c hc => h c (List.mem_filter.1 hc).1

@[simp] theorem truncate_zero (m : Memory) : m.truncate 0 = [] := by
  simp [truncate]

theorem byteAt_truncate (m : Memory) (n j : Nat) :
    (m.truncate n).byteAt j = if j < n then m.byteAt j else none := by
  induction m with
  | nil => simp [truncate]
  | cons c m ih =>
    obtain ⟨k, c⟩ := c
    simp only [truncate] at ih ⊢
    by_cases hk : k < n
    · simp only [List.filter_cons, hk, decide_true, if_true, byteAt, ih]
      by_cases hj : j = k
      · subst hj; simp [hk]
      · simp [hj]
    · simp only [List.filter_cons, hk, decide_false, byteAt]
      rw [if_neg (by simp), ih]
      by_cases hj : j < n
      · rw [if_pos hj, if_pos hj, if_neg (by omega)]
      · rw [if_neg hj, if_neg hj]

theorem byteAt_of_below {m : Memory} {n i : Nat} (h : m.below n) (hi : n ≤ i) : m.byteAt i = none := by
  induction m with
  | nil => rfl
  | cons c m ih =>
    have hc := h c List.mem_cons_self
    simp only [byteAt]
    rw [if_neg (by omega), ih (fun d hd => h d (List.mem_cons_of_mem _ hd))]

end Memory

theorem dstAfter_wf {m : Memory} (h : m.wf) (e : ErrCode) (len : Word) : (dstAfter e len m).wf := by
  unfold dstAfter
  split
  · exact Memory.truncate_wf h _
  · split
    · exact h
    · exact Memory.truncate_wf h _

theorem dstAfter_below {m : Memory} {n : Nat} (h : m.below n) (e : ErrCode) (len : Word) :
    (dstAfter e len m).below n := by
  unfold dstAfter
  split
  · exact Memory.truncate_below h _
  · split
    · exact h
    · exact Memory.truncate_below h _

theorem reset_src_wf : State.reset.src.wf := List.Pairwise.nil

theorem reset_dst_wf : State.reset.dst.wf := List.Pairwise.nil

end Sys2Proof.Machine
end

