-- ==== Sys2Proof/Laws/State.lean ====
section
/-! SUPPORT. Each field after each update of the state that the shared operations make. -/

namespace Sys2Proof.Machine

variable (s : State)

section acceptCommand
@[simp] theorem acceptCommand_params (w : Word) : (acceptCommand w s).params = s.params := rfl
@[simp] theorem acceptCommand_cmd (w : Word) : (acceptCommand w s).cmd = w := rfl
@[simp] theorem acceptCommand_status (w : Word) : (acceptCommand w s).status = Status.accepted := rfl
@[simp] theorem acceptCommand_srcLen (w : Word) : (acceptCommand w s).srcLen = s.srcLen := rfl
@[simp] theorem acceptCommand_dstLimit (w : Word) : (acceptCommand w s).dstLimit = s.dstLimit := rfl
@[simp] theorem acceptCommand_dstLen (w : Word) : (acceptCommand w s).dstLen = 0 := rfl
@[simp] theorem acceptCommand_cfgAttempts (w : Word) : (acceptCommand w s).cfgAttempts = s.cfgAttempts := rfl
@[simp] theorem acceptCommand_cfgRetryDelay (w : Word) : (acceptCommand w s).cfgRetryDelay = s.cfgRetryDelay := rfl
@[simp] theorem acceptCommand_cfgReadTimeout (w : Word) : (acceptCommand w s).cfgReadTimeout = s.cfgReadTimeout := rfl
@[simp] theorem acceptCommand_attemptIdx (w : Word) : (acceptCommand w s).attemptIdx = 0 := rfl
@[simp] theorem acceptCommand_xerr (w : Word) : (acceptCommand w s).xerr = 0 := rfl
@[simp] theorem acceptCommand_phase (w : Word) : (acceptCommand w s).phase = .exec := rfl
@[simp] theorem acceptCommand_src (w : Word) : (acceptCommand w s).src = s.src := rfl
@[simp] theorem acceptCommand_dst (w : Word) : (acceptCommand w s).dst = s.dst := rfl
@[simp] theorem acceptCommand_acc (w : Word) : (acceptCommand w s).acc = s.acc := rfl
@[simp] theorem acceptCommand_reqLen (w : Word) : (acceptCommand w s).reqLen = s.reqLen := rfl
@[simp] theorem acceptCommand_req (w : Word) : (acceptCommand w s).req = s.req := rfl
@[simp] theorem acceptCommand_latchN (w : Word) : (acceptCommand w s).latchN = s.latchN := rfl
@[simp] theorem acceptCommand_latchD (w : Word) : (acceptCommand w s).latchD = s.latchD := rfl
@[simp] theorem acceptCommand_latchT (w : Word) : (acceptCommand w s).latchT = s.latchT := rfl
@[simp] theorem acceptCommand_tArm (w : Word) : (acceptCommand w s).tArm = s.tArm := rfl
@[simp] theorem acceptCommand_tFail (w : Word) : (acceptCommand w s).tFail = s.tFail := rfl
@[simp] theorem acceptCommand_lastErr (w : Word) : (acceptCommand w s).lastErr = s.lastErr := rfl
@[simp] theorem acceptCommand_lastXerr (w : Word) : (acceptCommand w s).lastXerr = s.lastXerr := rfl
@[simp] theorem acceptCommand_wr (w : Word) : (acceptCommand w s).wr = s.wr := rfl
@[simp] theorem acceptCommand_rd (w : Word) : (acceptCommand w s).rd = s.rd := rfl
@[simp] theorem acceptCommand_now (w : Word) : (acceptCommand w s).now = s.now := rfl
@[simp] theorem acceptCommand_txlog (w : Word) : (acceptCommand w s).txlog = s.txlog := rfl
@[simp] theorem acceptCommand_hist (w : Word) : (acceptCommand w s).hist = s.hist := rfl
@[simp] theorem acceptCommand_agenda (w : Word) : (acceptCommand w s).agenda = s.agenda := rfl
@[simp] theorem acceptCommand_draws (w : Word) : (acceptCommand w s).draws = s.draws := rfl
@[simp] theorem acceptCommand_reads (w : Word) : (acceptCommand w s).reads = s.reads := rfl
end acceptCommand

section complete
@[simp] theorem complete_params (e : ErrCode) (info : Word) : (complete e info s).params = s.params := rfl
@[simp] theorem complete_cmd (e : ErrCode) (info : Word) : (complete e info s).cmd = s.cmd := rfl
@[simp] theorem complete_status (e : ErrCode) (info : Word) : (complete e info s).status = Status.completed e := rfl
@[simp] theorem complete_srcLen (e : ErrCode) (info : Word) : (complete e info s).srcLen = s.srcLen := rfl
@[simp] theorem complete_dstLimit (e : ErrCode) (info : Word) : (complete e info s).dstLimit = s.dstLimit := rfl
@[simp] theorem complete_dstLen (e : ErrCode) (info : Word) : (complete e info s).dstLen = if e = .eNone then s.dstLen else 0 := rfl
@[simp] theorem complete_cfgAttempts (e : ErrCode) (info : Word) : (complete e info s).cfgAttempts = s.cfgAttempts := rfl
@[simp] theorem complete_cfgRetryDelay (e : ErrCode) (info : Word) : (complete e info s).cfgRetryDelay = s.cfgRetryDelay := rfl
@[simp] theorem complete_cfgReadTimeout (e : ErrCode) (info : Word) : (complete e info s).cfgReadTimeout = s.cfgReadTimeout := rfl
@[simp] theorem complete_attemptIdx (e : ErrCode) (info : Word) : (complete e info s).attemptIdx = s.attemptIdx := rfl
@[simp] theorem complete_xerr (e : ErrCode) (info : Word) : (complete e info s).xerr = info := rfl
@[simp] theorem complete_phase (e : ErrCode) (info : Word) : (complete e info s).phase = .idle := rfl
@[simp] theorem complete_src (e : ErrCode) (info : Word) : (complete e info s).src = s.src := rfl
@[simp] theorem complete_dst (e : ErrCode) (info : Word) : (complete e info s).dst = dstAfter e s.dstLen s.dst := rfl
@[simp] theorem complete_acc (e : ErrCode) (info : Word) : (complete e info s).acc = [] := rfl
@[simp] theorem complete_reqLen (e : ErrCode) (info : Word) : (complete e info s).reqLen = s.reqLen := rfl
@[simp] theorem complete_req (e : ErrCode) (info : Word) : (complete e info s).req = s.req := rfl
@[simp] theorem complete_latchN (e : ErrCode) (info : Word) : (complete e info s).latchN = s.latchN := rfl
@[simp] theorem complete_latchD (e : ErrCode) (info : Word) : (complete e info s).latchD = s.latchD := rfl
@[simp] theorem complete_latchT (e : ErrCode) (info : Word) : (complete e info s).latchT = s.latchT := rfl
@[simp] theorem complete_tArm (e : ErrCode) (info : Word) : (complete e info s).tArm = s.tArm := rfl
@[simp] theorem complete_tFail (e : ErrCode) (info : Word) : (complete e info s).tFail = s.tFail := rfl
@[simp] theorem complete_lastErr (e : ErrCode) (info : Word) : (complete e info s).lastErr = s.lastErr := rfl
@[simp] theorem complete_lastXerr (e : ErrCode) (info : Word) : (complete e info s).lastXerr = s.lastXerr := rfl
@[simp] theorem complete_wr (e : ErrCode) (info : Word) : (complete e info s).wr = none := rfl
@[simp] theorem complete_rd (e : ErrCode) (info : Word) : (complete e info s).rd = .none := rfl
@[simp] theorem complete_now (e : ErrCode) (info : Word) : (complete e info s).now = s.now := rfl
@[simp] theorem complete_txlog (e : ErrCode) (info : Word) : (complete e info s).txlog = s.txlog := rfl
@[simp] theorem complete_hist (e : ErrCode) (info : Word) : (complete e info s).hist = s.hist := rfl
@[simp] theorem complete_agenda (e : ErrCode) (info : Word) : (complete e info s).agenda = s.agenda := rfl
@[simp] theorem complete_draws (e : ErrCode) (info : Word) : (complete e info s).draws = s.draws := rfl
@[simp] theorem complete_reads (e : ErrCode) (info : Word) : (complete e info s).reads = s.reads := rfl
end complete

section succeed
@[simp] theorem succeed_params (out : List Byte) : (succeed out s).params = s.params := rfl
@[simp] theorem succeed_cmd (out : List Byte) : (succeed out s).cmd = s.cmd := rfl
@[simp] theorem succeed_status (out : List Byte) : (succeed out s).status = Status.completed .eNone := rfl
@[simp] theorem succeed_srcLen (out : List Byte) : (succeed out s).srcLen = s.srcLen := rfl
@[simp] theorem succeed_dstLimit (out : List Byte) : (succeed out s).dstLimit = s.dstLimit := rfl
@[simp] theorem succeed_dstLen (out : List Byte) : (succeed out s).dstLen = BitVec.ofNat 32 out.length := rfl
@[simp] theorem succeed_cfgAttempts (out : List Byte) : (succeed out s).cfgAttempts = s.cfgAttempts := rfl
@[simp] theorem succeed_cfgRetryDelay (out : List Byte) : (succeed out s).cfgRetryDelay = s.cfgRetryDelay := rfl
@[simp] theorem succeed_cfgReadTimeout (out : List Byte) : (succeed out s).cfgReadTimeout = s.cfgReadTimeout := rfl
@[simp] theorem succeed_attemptIdx (out : List Byte) : (succeed out s).attemptIdx = s.attemptIdx := rfl
@[simp] theorem succeed_xerr (out : List Byte) : (succeed out s).xerr = 0 := rfl
@[simp] theorem succeed_phase (out : List Byte) : (succeed out s).phase = .idle := rfl
@[simp] theorem succeed_src (out : List Byte) : (succeed out s).src = s.src := rfl
@[simp] theorem succeed_dst (out : List Byte) : (succeed out s).dst = (s.dst.putAll 0 out).truncate (BitVec.ofNat 32 out.length).toNat := rfl
@[simp] theorem succeed_acc (out : List Byte) : (succeed out s).acc = [] := rfl
@[simp] theorem succeed_reqLen (out : List Byte) : (succeed out s).reqLen = s.reqLen := rfl
@[simp] theorem succeed_req (out : List Byte) : (succeed out s).req = s.req := rfl
@[simp] theorem succeed_latchN (out : List Byte) : (succeed out s).latchN = s.latchN := rfl
@[simp] theorem succeed_latchD (out : List Byte) : (succeed out s).latchD = s.latchD := rfl
@[simp] theorem succeed_latchT (out : List Byte) : (succeed out s).latchT = s.latchT := rfl
@[simp] theorem succeed_tArm (out : List Byte) : (succeed out s).tArm = s.tArm := rfl
@[simp] theorem succeed_tFail (out : List Byte) : (succeed out s).tFail = s.tFail := rfl
@[simp] theorem succeed_lastErr (out : List Byte) : (succeed out s).lastErr = s.lastErr := rfl
@[simp] theorem succeed_lastXerr (out : List Byte) : (succeed out s).lastXerr = s.lastXerr := rfl
@[simp] theorem succeed_wr (out : List Byte) : (succeed out s).wr = none := rfl
@[simp] theorem succeed_rd (out : List Byte) : (succeed out s).rd = .none := rfl
@[simp] theorem succeed_now (out : List Byte) : (succeed out s).now = s.now := rfl
@[simp] theorem succeed_txlog (out : List Byte) : (succeed out s).txlog = s.txlog := rfl
@[simp] theorem succeed_hist (out : List Byte) : (succeed out s).hist = s.hist := rfl
@[simp] theorem succeed_agenda (out : List Byte) : (succeed out s).agenda = s.agenda := rfl
@[simp] theorem succeed_draws (out : List Byte) : (succeed out s).draws = s.draws := rfl
@[simp] theorem succeed_reads (out : List Byte) : (succeed out s).reads = s.reads := rfl
end succeed

section afterOperand
@[simp] theorem afterOperand_params : (afterOperand s).params = s.params := rfl
@[simp] theorem afterOperand_cmd : (afterOperand s).cmd = s.cmd := rfl
@[simp] theorem afterOperand_status : (afterOperand s).status = s.status := rfl
@[simp] theorem afterOperand_srcLen : (afterOperand s).srcLen = s.srcLen := rfl
@[simp] theorem afterOperand_dstLimit : (afterOperand s).dstLimit = s.dstLimit := rfl
@[simp] theorem afterOperand_dstLen : (afterOperand s).dstLen = s.dstLen := rfl
@[simp] theorem afterOperand_cfgAttempts : (afterOperand s).cfgAttempts = s.cfgAttempts := rfl
@[simp] theorem afterOperand_cfgRetryDelay : (afterOperand s).cfgRetryDelay = s.cfgRetryDelay := rfl
@[simp] theorem afterOperand_cfgReadTimeout : (afterOperand s).cfgReadTimeout = s.cfgReadTimeout := rfl
@[simp] theorem afterOperand_attemptIdx : (afterOperand s).attemptIdx = s.attemptIdx := rfl
@[simp] theorem afterOperand_xerr : (afterOperand s).xerr = s.xerr := rfl
@[simp] theorem afterOperand_phase : (afterOperand s).phase = s.phase := rfl
@[simp] theorem afterOperand_src : (afterOperand s).src = s.src := rfl
@[simp] theorem afterOperand_dst : (afterOperand s).dst = s.dst := rfl
@[simp] theorem afterOperand_acc : (afterOperand s).acc = s.acc := rfl
@[simp] theorem afterOperand_reqLen : (afterOperand s).reqLen = s.reqLen := rfl
@[simp] theorem afterOperand_req : (afterOperand s).req = s.req := rfl
@[simp] theorem afterOperand_latchN : (afterOperand s).latchN = s.latchN := rfl
@[simp] theorem afterOperand_latchD : (afterOperand s).latchD = s.latchD := rfl
@[simp] theorem afterOperand_latchT : (afterOperand s).latchT = s.latchT := rfl
@[simp] theorem afterOperand_tArm : (afterOperand s).tArm = s.tArm := rfl
@[simp] theorem afterOperand_tFail : (afterOperand s).tFail = s.tFail := rfl
@[simp] theorem afterOperand_lastErr : (afterOperand s).lastErr = s.lastErr := rfl
@[simp] theorem afterOperand_lastXerr : (afterOperand s).lastXerr = s.lastXerr := rfl
@[simp] theorem afterOperand_wr : (afterOperand s).wr = s.wr := rfl
@[simp] theorem afterOperand_rd : (afterOperand s).rd = s.rd := rfl
@[simp] theorem afterOperand_now : (afterOperand s).now = s.now := rfl
@[simp] theorem afterOperand_txlog : (afterOperand s).txlog = s.txlog := rfl
@[simp] theorem afterOperand_hist : (afterOperand s).hist = s.hist := rfl
@[simp] theorem afterOperand_agenda : (afterOperand s).agenda = s.agenda := rfl
@[simp] theorem afterOperand_draws : (afterOperand s).draws = (readBytes s.src s.draws 0 s.srcLen.toNat).2 := rfl
@[simp] theorem afterOperand_reads : (afterOperand s).reads = s.reads := rfl
end afterOperand

section beginAttempt
@[simp] theorem beginAttempt_params : (beginAttempt s).params = s.params := rfl
@[simp] theorem beginAttempt_cmd : (beginAttempt s).cmd = s.cmd := rfl
@[simp] theorem beginAttempt_status : (beginAttempt s).status = s.status := rfl
@[simp] theorem beginAttempt_srcLen : (beginAttempt s).srcLen = s.srcLen := rfl
@[simp] theorem beginAttempt_dstLimit : (beginAttempt s).dstLimit = s.dstLimit := rfl
@[simp] theorem beginAttempt_dstLen : (beginAttempt s).dstLen = s.dstLen := rfl
@[simp] theorem beginAttempt_cfgAttempts : (beginAttempt s).cfgAttempts = s.cfgAttempts := rfl
@[simp] theorem beginAttempt_cfgRetryDelay : (beginAttempt s).cfgRetryDelay = s.cfgRetryDelay := rfl
@[simp] theorem beginAttempt_cfgReadTimeout : (beginAttempt s).cfgReadTimeout = s.cfgReadTimeout := rfl
@[simp] theorem beginAttempt_attemptIdx : (beginAttempt s).attemptIdx = s.attemptIdx + 1 := rfl
@[simp] theorem beginAttempt_xerr : (beginAttempt s).xerr = s.xerr := rfl
@[simp] theorem beginAttempt_phase : (beginAttempt s).phase = .write := rfl
@[simp] theorem beginAttempt_src : (beginAttempt s).src = s.src := rfl
@[simp] theorem beginAttempt_dst : (beginAttempt s).dst = s.dst := rfl
@[simp] theorem beginAttempt_acc : (beginAttempt s).acc = [] := rfl
@[simp] theorem beginAttempt_reqLen : (beginAttempt s).reqLen = s.reqLen := rfl
@[simp] theorem beginAttempt_req : (beginAttempt s).req = s.req := rfl
@[simp] theorem beginAttempt_latchN : (beginAttempt s).latchN = s.latchN := rfl
@[simp] theorem beginAttempt_latchD : (beginAttempt s).latchD = s.latchD := rfl
@[simp] theorem beginAttempt_latchT : (beginAttempt s).latchT = s.latchT := rfl
@[simp] theorem beginAttempt_tArm : (beginAttempt s).tArm = s.now := rfl
@[simp] theorem beginAttempt_tFail : (beginAttempt s).tFail = s.tFail := rfl
@[simp] theorem beginAttempt_lastErr : (beginAttempt s).lastErr = s.lastErr := rfl
@[simp] theorem beginAttempt_lastXerr : (beginAttempt s).lastXerr = s.lastXerr := rfl
@[simp] theorem beginAttempt_wr : (beginAttempt s).wr = some s.req := rfl
@[simp] theorem beginAttempt_rd : (beginAttempt s).rd = s.rd := rfl
@[simp] theorem beginAttempt_now : (beginAttempt s).now = s.now := rfl
@[simp] theorem beginAttempt_txlog : (beginAttempt s).txlog = s.txlog := rfl
@[simp] theorem beginAttempt_hist : (beginAttempt s).hist = s.hist ++ [.writeReq s.req] := rfl
@[simp] theorem beginAttempt_agenda : (beginAttempt s).agenda = s.agenda := rfl
@[simp] theorem beginAttempt_draws : (beginAttempt s).draws = s.draws := rfl
@[simp] theorem beginAttempt_reads : (beginAttempt s).reads = s.reads := rfl
end beginAttempt

section issueRead
@[simp] theorem issueRead_params : (issueRead s).params = s.params := rfl
@[simp] theorem issueRead_cmd : (issueRead s).cmd = s.cmd := rfl
@[simp] theorem issueRead_status : (issueRead s).status = s.status := rfl
@[simp] theorem issueRead_srcLen : (issueRead s).srcLen = s.srcLen := rfl
@[simp] theorem issueRead_dstLimit : (issueRead s).dstLimit = s.dstLimit := rfl
@[simp] theorem issueRead_dstLen : (issueRead s).dstLen = s.dstLen := rfl
@[simp] theorem issueRead_cfgAttempts : (issueRead s).cfgAttempts = s.cfgAttempts := rfl
@[simp] theorem issueRead_cfgRetryDelay : (issueRead s).cfgRetryDelay = s.cfgRetryDelay := rfl
@[simp] theorem issueRead_cfgReadTimeout : (issueRead s).cfgReadTimeout = s.cfgReadTimeout := rfl
@[simp] theorem issueRead_attemptIdx : (issueRead s).attemptIdx = s.attemptIdx := rfl
@[simp] theorem issueRead_xerr : (issueRead s).xerr = s.xerr := rfl
@[simp] theorem issueRead_phase : (issueRead s).phase = .read := rfl
@[simp] theorem issueRead_src : (issueRead s).src = s.src := rfl
@[simp] theorem issueRead_dst : (issueRead s).dst = s.dst := rfl
@[simp] theorem issueRead_acc : (issueRead s).acc = s.acc := rfl
@[simp] theorem issueRead_reqLen : (issueRead s).reqLen = s.reqLen := rfl
@[simp] theorem issueRead_req : (issueRead s).req = s.req := rfl
@[simp] theorem issueRead_latchN : (issueRead s).latchN = s.latchN := rfl
@[simp] theorem issueRead_latchD : (issueRead s).latchD = s.latchD := rfl
@[simp] theorem issueRead_latchT : (issueRead s).latchT = s.latchT := rfl
@[simp] theorem issueRead_tArm : (issueRead s).tArm = s.tArm := rfl
@[simp] theorem issueRead_tFail : (issueRead s).tFail = s.tFail := rfl
@[simp] theorem issueRead_lastErr : (issueRead s).lastErr = s.lastErr := rfl
@[simp] theorem issueRead_lastXerr : (issueRead s).lastXerr = s.lastXerr := rfl
@[simp] theorem issueRead_wr : (issueRead s).wr = s.wr := rfl
@[simp] theorem issueRead_rd : (issueRead s).rd = .pending := rfl
@[simp] theorem issueRead_now : (issueRead s).now = s.now := rfl
@[simp] theorem issueRead_txlog : (issueRead s).txlog = s.txlog := rfl
@[simp] theorem issueRead_hist : (issueRead s).hist = s.hist ++ [.readReq] := rfl
@[simp] theorem issueRead_agenda : (issueRead s).agenda = s.agenda := rfl
@[simp] theorem issueRead_draws : (issueRead s).draws = s.draws := rfl
@[simp] theorem issueRead_reads : (issueRead s).reads = s.reads := rfl
end issueRead

section latchRequest
@[simp] theorem latchRequest_params : (latchRequest s).params = s.params := rfl
@[simp] theorem latchRequest_cmd : (latchRequest s).cmd = s.cmd := rfl
@[simp] theorem latchRequest_status : (latchRequest s).status = s.status := rfl
@[simp] theorem latchRequest_srcLen : (latchRequest s).srcLen = s.srcLen := rfl
@[simp] theorem latchRequest_dstLimit : (latchRequest s).dstLimit = s.dstLimit := rfl
@[simp] theorem latchRequest_dstLen : (latchRequest s).dstLen = s.dstLen := rfl
@[simp] theorem latchRequest_cfgAttempts : (latchRequest s).cfgAttempts = s.cfgAttempts := rfl
@[simp] theorem latchRequest_cfgRetryDelay : (latchRequest s).cfgRetryDelay = s.cfgRetryDelay := rfl
@[simp] theorem latchRequest_cfgReadTimeout : (latchRequest s).cfgReadTimeout = s.cfgReadTimeout := rfl
@[simp] theorem latchRequest_attemptIdx : (latchRequest s).attemptIdx = s.attemptIdx := rfl
@[simp] theorem latchRequest_xerr : (latchRequest s).xerr = s.xerr := rfl
@[simp] theorem latchRequest_phase : (latchRequest s).phase = s.phase := rfl
@[simp] theorem latchRequest_src : (latchRequest s).src = s.src := rfl
@[simp] theorem latchRequest_dst : (latchRequest s).dst = s.dst := rfl
@[simp] theorem latchRequest_acc : (latchRequest s).acc = s.acc := rfl
@[simp] theorem latchRequest_reqLen : (latchRequest s).reqLen = s.srcLen := rfl
@[simp] theorem latchRequest_req : (latchRequest s).req = operand s := rfl
@[simp] theorem latchRequest_latchN : (latchRequest s).latchN = s.latchN := rfl
@[simp] theorem latchRequest_latchD : (latchRequest s).latchD = s.latchD := rfl
@[simp] theorem latchRequest_latchT : (latchRequest s).latchT = s.latchT := rfl
@[simp] theorem latchRequest_tArm : (latchRequest s).tArm = s.tArm := rfl
@[simp] theorem latchRequest_tFail : (latchRequest s).tFail = s.tFail := rfl
@[simp] theorem latchRequest_lastErr : (latchRequest s).lastErr = s.lastErr := rfl
@[simp] theorem latchRequest_lastXerr : (latchRequest s).lastXerr = s.lastXerr := rfl
@[simp] theorem latchRequest_wr : (latchRequest s).wr = s.wr := rfl
@[simp] theorem latchRequest_rd : (latchRequest s).rd = s.rd := rfl
@[simp] theorem latchRequest_now : (latchRequest s).now = s.now := rfl
@[simp] theorem latchRequest_txlog : (latchRequest s).txlog = s.txlog := rfl
@[simp] theorem latchRequest_hist : (latchRequest s).hist = s.hist := rfl
@[simp] theorem latchRequest_agenda : (latchRequest s).agenda = s.agenda := rfl
@[simp] theorem latchRequest_draws : (latchRequest s).draws = (readBytes s.src s.draws 0 s.srcLen.toNat).2 := rfl
@[simp] theorem latchRequest_reads : (latchRequest s).reads = s.reads := rfl
end latchRequest

section latchConfig
@[simp] theorem latchConfig_params : (latchConfig s).params = s.params := rfl
@[simp] theorem latchConfig_cmd : (latchConfig s).cmd = s.cmd := rfl
@[simp] theorem latchConfig_status : (latchConfig s).status = s.status := rfl
@[simp] theorem latchConfig_srcLen : (latchConfig s).srcLen = s.srcLen := rfl
@[simp] theorem latchConfig_dstLimit : (latchConfig s).dstLimit = s.dstLimit := rfl
@[simp] theorem latchConfig_dstLen : (latchConfig s).dstLen = s.dstLen := rfl
@[simp] theorem latchConfig_cfgAttempts : (latchConfig s).cfgAttempts = s.cfgAttempts := rfl
@[simp] theorem latchConfig_cfgRetryDelay : (latchConfig s).cfgRetryDelay = s.cfgRetryDelay := rfl
@[simp] theorem latchConfig_cfgReadTimeout : (latchConfig s).cfgReadTimeout = s.cfgReadTimeout := rfl
@[simp] theorem latchConfig_attemptIdx : (latchConfig s).attemptIdx = s.attemptIdx := rfl
@[simp] theorem latchConfig_xerr : (latchConfig s).xerr = s.xerr := rfl
@[simp] theorem latchConfig_phase : (latchConfig s).phase = s.phase := rfl
@[simp] theorem latchConfig_src : (latchConfig s).src = s.src := rfl
@[simp] theorem latchConfig_dst : (latchConfig s).dst = s.dst := rfl
@[simp] theorem latchConfig_acc : (latchConfig s).acc = s.acc := rfl
@[simp] theorem latchConfig_reqLen : (latchConfig s).reqLen = s.reqLen := rfl
@[simp] theorem latchConfig_req : (latchConfig s).req = s.req := rfl
@[simp] theorem latchConfig_latchN : (latchConfig s).latchN = s.cfgAttempts := rfl
@[simp] theorem latchConfig_latchD : (latchConfig s).latchD = s.cfgRetryDelay := rfl
@[simp] theorem latchConfig_latchT : (latchConfig s).latchT = s.cfgReadTimeout := rfl
@[simp] theorem latchConfig_tArm : (latchConfig s).tArm = s.tArm := rfl
@[simp] theorem latchConfig_tFail : (latchConfig s).tFail = s.tFail := rfl
@[simp] theorem latchConfig_lastErr : (latchConfig s).lastErr = .eNone := rfl
@[simp] theorem latchConfig_lastXerr : (latchConfig s).lastXerr = 0 := rfl
@[simp] theorem latchConfig_wr : (latchConfig s).wr = s.wr := rfl
@[simp] theorem latchConfig_rd : (latchConfig s).rd = s.rd := rfl
@[simp] theorem latchConfig_now : (latchConfig s).now = s.now := rfl
@[simp] theorem latchConfig_txlog : (latchConfig s).txlog = s.txlog := rfl
@[simp] theorem latchConfig_hist : (latchConfig s).hist = s.hist := rfl
@[simp] theorem latchConfig_agenda : (latchConfig s).agenda = s.agenda := rfl
@[simp] theorem latchConfig_draws : (latchConfig s).draws = s.draws := rfl
@[simp] theorem latchConfig_reads : (latchConfig s).reads = s.reads := rfl
end latchConfig

section readDone
@[simp] theorem readDone_params (r : ReadAnswer) : (readDone r s).params = s.params := rfl
@[simp] theorem readDone_cmd (r : ReadAnswer) : (readDone r s).cmd = s.cmd := rfl
@[simp] theorem readDone_status (r : ReadAnswer) : (readDone r s).status = s.status := rfl
@[simp] theorem readDone_srcLen (r : ReadAnswer) : (readDone r s).srcLen = s.srcLen := rfl
@[simp] theorem readDone_dstLimit (r : ReadAnswer) : (readDone r s).dstLimit = s.dstLimit := rfl
@[simp] theorem readDone_dstLen (r : ReadAnswer) : (readDone r s).dstLen = s.dstLen := rfl
@[simp] theorem readDone_cfgAttempts (r : ReadAnswer) : (readDone r s).cfgAttempts = s.cfgAttempts := rfl
@[simp] theorem readDone_cfgRetryDelay (r : ReadAnswer) : (readDone r s).cfgRetryDelay = s.cfgRetryDelay := rfl
@[simp] theorem readDone_cfgReadTimeout (r : ReadAnswer) : (readDone r s).cfgReadTimeout = s.cfgReadTimeout := rfl
@[simp] theorem readDone_attemptIdx (r : ReadAnswer) : (readDone r s).attemptIdx = s.attemptIdx := rfl
@[simp] theorem readDone_xerr (r : ReadAnswer) : (readDone r s).xerr = s.xerr := rfl
@[simp] theorem readDone_phase (r : ReadAnswer) : (readDone r s).phase = s.phase := rfl
@[simp] theorem readDone_src (r : ReadAnswer) : (readDone r s).src = s.src := rfl
@[simp] theorem readDone_dst (r : ReadAnswer) : (readDone r s).dst = s.dst := rfl
@[simp] theorem readDone_acc (r : ReadAnswer) : (readDone r s).acc = s.acc := rfl
@[simp] theorem readDone_reqLen (r : ReadAnswer) : (readDone r s).reqLen = s.reqLen := rfl
@[simp] theorem readDone_req (r : ReadAnswer) : (readDone r s).req = s.req := rfl
@[simp] theorem readDone_latchN (r : ReadAnswer) : (readDone r s).latchN = s.latchN := rfl
@[simp] theorem readDone_latchD (r : ReadAnswer) : (readDone r s).latchD = s.latchD := rfl
@[simp] theorem readDone_latchT (r : ReadAnswer) : (readDone r s).latchT = s.latchT := rfl
@[simp] theorem readDone_tArm (r : ReadAnswer) : (readDone r s).tArm = s.tArm := rfl
@[simp] theorem readDone_tFail (r : ReadAnswer) : (readDone r s).tFail = s.tFail := rfl
@[simp] theorem readDone_lastErr (r : ReadAnswer) : (readDone r s).lastErr = s.lastErr := rfl
@[simp] theorem readDone_lastXerr (r : ReadAnswer) : (readDone r s).lastXerr = s.lastXerr := rfl
@[simp] theorem readDone_wr (r : ReadAnswer) : (readDone r s).wr = s.wr := rfl
@[simp] theorem readDone_rd (r : ReadAnswer) : (readDone r s).rd = .completed r := rfl
@[simp] theorem readDone_now (r : ReadAnswer) : (readDone r s).now = s.now := rfl
@[simp] theorem readDone_txlog (r : ReadAnswer) : (readDone r s).txlog = s.txlog := rfl
@[simp] theorem readDone_hist (r : ReadAnswer) : (readDone r s).hist = s.hist ++ [.readDone r] := rfl
@[simp] theorem readDone_agenda (r : ReadAnswer) : (readDone r s).agenda = s.agenda := rfl
@[simp] theorem readDone_draws (r : ReadAnswer) : (readDone r s).draws = s.draws := rfl
@[simp] theorem readDone_reads (r : ReadAnswer) : (readDone r s).reads = s.reads := rfl
end readDone

section returned
@[simp] theorem returned_params (r : ReadResult) : (returned r s).params = s.params := rfl
@[simp] theorem returned_cmd (r : ReadResult) : (returned r s).cmd = s.cmd := rfl
@[simp] theorem returned_status (r : ReadResult) : (returned r s).status = s.status := rfl
@[simp] theorem returned_srcLen (r : ReadResult) : (returned r s).srcLen = s.srcLen := rfl
@[simp] theorem returned_dstLimit (r : ReadResult) : (returned r s).dstLimit = s.dstLimit := rfl
@[simp] theorem returned_dstLen (r : ReadResult) : (returned r s).dstLen = s.dstLen := rfl
@[simp] theorem returned_cfgAttempts (r : ReadResult) : (returned r s).cfgAttempts = s.cfgAttempts := rfl
@[simp] theorem returned_cfgRetryDelay (r : ReadResult) : (returned r s).cfgRetryDelay = s.cfgRetryDelay := rfl
@[simp] theorem returned_cfgReadTimeout (r : ReadResult) : (returned r s).cfgReadTimeout = s.cfgReadTimeout := rfl
@[simp] theorem returned_attemptIdx (r : ReadResult) : (returned r s).attemptIdx = s.attemptIdx := rfl
@[simp] theorem returned_xerr (r : ReadResult) : (returned r s).xerr = s.xerr := rfl
@[simp] theorem returned_phase (r : ReadResult) : (returned r s).phase = s.phase := rfl
@[simp] theorem returned_src (r : ReadResult) : (returned r s).src = s.src := rfl
@[simp] theorem returned_dst (r : ReadResult) : (returned r s).dst = s.dst := rfl
@[simp] theorem returned_acc (r : ReadResult) : (returned r s).acc = s.acc := rfl
@[simp] theorem returned_reqLen (r : ReadResult) : (returned r s).reqLen = s.reqLen := rfl
@[simp] theorem returned_req (r : ReadResult) : (returned r s).req = s.req := rfl
@[simp] theorem returned_latchN (r : ReadResult) : (returned r s).latchN = s.latchN := rfl
@[simp] theorem returned_latchD (r : ReadResult) : (returned r s).latchD = s.latchD := rfl
@[simp] theorem returned_latchT (r : ReadResult) : (returned r s).latchT = s.latchT := rfl
@[simp] theorem returned_tArm (r : ReadResult) : (returned r s).tArm = s.tArm := rfl
@[simp] theorem returned_tFail (r : ReadResult) : (returned r s).tFail = s.tFail := rfl
@[simp] theorem returned_lastErr (r : ReadResult) : (returned r s).lastErr = s.lastErr := rfl
@[simp] theorem returned_lastXerr (r : ReadResult) : (returned r s).lastXerr = s.lastXerr := rfl
@[simp] theorem returned_wr (r : ReadResult) : (returned r s).wr = s.wr := rfl
@[simp] theorem returned_rd (r : ReadResult) : (returned r s).rd = s.rd := rfl
@[simp] theorem returned_now (r : ReadResult) : (returned r s).now = s.now := rfl
@[simp] theorem returned_txlog (r : ReadResult) : (returned r s).txlog = s.txlog := rfl
@[simp] theorem returned_hist (r : ReadResult) : (returned r s).hist = s.hist := rfl
@[simp] theorem returned_agenda (r : ReadResult) : (returned r s).agenda = s.agenda := rfl
@[simp] theorem returned_draws (r : ReadResult) : (returned r s).draws = s.draws := rfl
@[simp] theorem returned_reads (r : ReadResult) : (returned r s).reads = s.reads ++ [r] := rfl
end returned

section tick
@[simp] theorem tick_params : (tick s).params = s.params := rfl
@[simp] theorem tick_cmd : (tick s).cmd = s.cmd := rfl
@[simp] theorem tick_status : (tick s).status = s.status := rfl
@[simp] theorem tick_srcLen : (tick s).srcLen = s.srcLen := rfl
@[simp] theorem tick_dstLimit : (tick s).dstLimit = s.dstLimit := rfl
@[simp] theorem tick_dstLen : (tick s).dstLen = s.dstLen := rfl
@[simp] theorem tick_cfgAttempts : (tick s).cfgAttempts = s.cfgAttempts := rfl
@[simp] theorem tick_cfgRetryDelay : (tick s).cfgRetryDelay = s.cfgRetryDelay := rfl
@[simp] theorem tick_cfgReadTimeout : (tick s).cfgReadTimeout = s.cfgReadTimeout := rfl
@[simp] theorem tick_attemptIdx : (tick s).attemptIdx = s.attemptIdx := rfl
@[simp] theorem tick_xerr : (tick s).xerr = s.xerr := rfl
@[simp] theorem tick_phase : (tick s).phase = s.phase := rfl
@[simp] theorem tick_src : (tick s).src = s.src := rfl
@[simp] theorem tick_dst : (tick s).dst = s.dst := rfl
@[simp] theorem tick_acc : (tick s).acc = s.acc := rfl
@[simp] theorem tick_reqLen : (tick s).reqLen = s.reqLen := rfl
@[simp] theorem tick_req : (tick s).req = s.req := rfl
@[simp] theorem tick_latchN : (tick s).latchN = s.latchN := rfl
@[simp] theorem tick_latchD : (tick s).latchD = s.latchD := rfl
@[simp] theorem tick_latchT : (tick s).latchT = s.latchT := rfl
@[simp] theorem tick_tArm : (tick s).tArm = s.tArm := rfl
@[simp] theorem tick_tFail : (tick s).tFail = s.tFail := rfl
@[simp] theorem tick_lastErr : (tick s).lastErr = s.lastErr := rfl
@[simp] theorem tick_lastXerr : (tick s).lastXerr = s.lastXerr := rfl
@[simp] theorem tick_wr : (tick s).wr = s.wr := rfl
@[simp] theorem tick_rd : (tick s).rd = s.rd := rfl
@[simp] theorem tick_now : (tick s).now = s.now + 1 := rfl
@[simp] theorem tick_txlog : (tick s).txlog = s.txlog := rfl
@[simp] theorem tick_hist : (tick s).hist = s.hist := rfl
@[simp] theorem tick_agenda : (tick s).agenda = s.agenda := rfl
@[simp] theorem tick_draws : (tick s).draws = s.draws := rfl
@[simp] theorem tick_reads : (tick s).reads = s.reads := rfl
end tick

section abandon
@[simp] theorem abandonTransport_params : (abandonTransport s).params = s.params := rfl
@[simp] theorem abandonTransport_cmd : (abandonTransport s).cmd = s.cmd := rfl
@[simp] theorem abandonTransport_status : (abandonTransport s).status = s.status := rfl
@[simp] theorem abandonTransport_srcLen : (abandonTransport s).srcLen = s.srcLen := rfl
@[simp] theorem abandonTransport_dstLimit : (abandonTransport s).dstLimit = s.dstLimit := rfl
@[simp] theorem abandonTransport_dstLen : (abandonTransport s).dstLen = s.dstLen := rfl
@[simp] theorem abandonTransport_cfgAttempts : (abandonTransport s).cfgAttempts = s.cfgAttempts := rfl
@[simp] theorem abandonTransport_cfgRetryDelay : (abandonTransport s).cfgRetryDelay = s.cfgRetryDelay := rfl
@[simp] theorem abandonTransport_cfgReadTimeout : (abandonTransport s).cfgReadTimeout = s.cfgReadTimeout := rfl
@[simp] theorem abandonTransport_attemptIdx : (abandonTransport s).attemptIdx = s.attemptIdx := rfl
@[simp] theorem abandonTransport_xerr : (abandonTransport s).xerr = s.xerr := rfl
@[simp] theorem abandonTransport_phase : (abandonTransport s).phase = s.phase := rfl
@[simp] theorem abandonTransport_src : (abandonTransport s).src = s.src := rfl
@[simp] theorem abandonTransport_dst : (abandonTransport s).dst = s.dst := rfl
@[simp] theorem abandonTransport_acc : (abandonTransport s).acc = s.acc := rfl
@[simp] theorem abandonTransport_reqLen : (abandonTransport s).reqLen = s.reqLen := rfl
@[simp] theorem abandonTransport_req : (abandonTransport s).req = s.req := rfl
@[simp] theorem abandonTransport_latchN : (abandonTransport s).latchN = s.latchN := rfl
@[simp] theorem abandonTransport_latchD : (abandonTransport s).latchD = s.latchD := rfl
@[simp] theorem abandonTransport_latchT : (abandonTransport s).latchT = s.latchT := rfl
@[simp] theorem abandonTransport_tArm : (abandonTransport s).tArm = s.tArm := rfl
@[simp] theorem abandonTransport_tFail : (abandonTransport s).tFail = s.tFail := rfl
@[simp] theorem abandonTransport_lastErr : (abandonTransport s).lastErr = s.lastErr := rfl
@[simp] theorem abandonTransport_lastXerr : (abandonTransport s).lastXerr = s.lastXerr := rfl
@[simp] theorem abandonTransport_wr : (abandonTransport s).wr = s.wr := rfl
@[simp] theorem abandonTransport_rd : (abandonTransport s).rd = s.rd := rfl
@[simp] theorem abandonTransport_now : (abandonTransport s).now = s.now := rfl
@[simp] theorem abandonTransport_agenda : (abandonTransport s).agenda = s.agenda := rfl
@[simp] theorem abandonTransport_reads : (abandonTransport s).reads = s.reads := rfl
end abandon

section hostReset
@[simp] theorem hostReset_params : (hostReset s).params = s.params := rfl
@[simp] theorem hostReset_cmd : (hostReset s).cmd = 0 := rfl
@[simp] theorem hostReset_status : (hostReset s).status = { busy := false, done := false, err := false, errcode := .eNone } := rfl
@[simp] theorem hostReset_srcLen : (hostReset s).srcLen = 0 := rfl
@[simp] theorem hostReset_dstLimit : (hostReset s).dstLimit = BitVec.ofNat 32 s.params.dstCap := rfl
@[simp] theorem hostReset_dstLen : (hostReset s).dstLen = 0 := rfl
@[simp] theorem hostReset_cfgAttempts : (hostReset s).cfgAttempts = 1 := rfl
@[simp] theorem hostReset_cfgRetryDelay : (hostReset s).cfgRetryDelay = 0 := rfl
@[simp] theorem hostReset_cfgReadTimeout : (hostReset s).cfgReadTimeout = 0 := rfl
@[simp] theorem hostReset_attemptIdx : (hostReset s).attemptIdx = 0 := rfl
@[simp] theorem hostReset_xerr : (hostReset s).xerr = 0 := rfl
@[simp] theorem hostReset_phase : (hostReset s).phase = .idle := rfl
@[simp] theorem hostReset_src : (hostReset s).src = [] := rfl
@[simp] theorem hostReset_dst : (hostReset s).dst = [] := rfl
@[simp] theorem hostReset_acc : (hostReset s).acc = [] := rfl
@[simp] theorem hostReset_reqLen : (hostReset s).reqLen = 0 := rfl
@[simp] theorem hostReset_req : (hostReset s).req = [] := rfl
@[simp] theorem hostReset_latchN : (hostReset s).latchN = 0 := rfl
@[simp] theorem hostReset_latchD : (hostReset s).latchD = 0 := rfl
@[simp] theorem hostReset_latchT : (hostReset s).latchT = 0 := rfl
@[simp] theorem hostReset_tArm : (hostReset s).tArm = 0 := rfl
@[simp] theorem hostReset_tFail : (hostReset s).tFail = 0 := rfl
@[simp] theorem hostReset_lastErr : (hostReset s).lastErr = .eNone := rfl
@[simp] theorem hostReset_lastXerr : (hostReset s).lastXerr = 0 := rfl
@[simp] theorem hostReset_wr : (hostReset s).wr = none := rfl
@[simp] theorem hostReset_rd : (hostReset s).rd = .none := rfl
@[simp] theorem hostReset_now : (hostReset s).now = s.now := rfl
@[simp] theorem hostReset_txlog : (hostReset s).txlog = (abandonTransport s).txlog := rfl
@[simp] theorem hostReset_hist : (hostReset s).hist = (abandonTransport s).hist := rfl
@[simp] theorem hostReset_agenda : (hostReset s).agenda = s.agenda := rfl
@[simp] theorem hostReset_draws : (hostReset s).draws = (abandonTransport s).draws := rfl
@[simp] theorem hostReset_reads : (hostReset s).reads = s.reads := rfl
end hostReset

end Sys2Proof.Machine
end

