-- ==== Sys2Proof/Laws/Ops.lean ====
section
/-! SUPPORT. What each shared operation does, said once: draws and operands, completions, the register map. -/

namespace Sys2Proof.Machine

/-! ### Operands -/

@[simp] theorem readBytes_length (m : Memory) (d i k : Nat) : (readBytes m d i k).1.length = k := by
  induction k generalizing d i with
  | zero => rfl
  | succ k ih => simp only [readBytes]; split <;> simp [ih]

theorem readBytes_draws_le (m : Memory) (d i k : Nat) : d ≤ (readBytes m d i k).2 := by
  induction k generalizing d i with
  | zero => exact Nat.le_refl d
  | succ k ih =>
    simp only [readBytes]
    split
    · exact ih d (i + 1)
    · exact Nat.le_trans (Nat.le_succ d) (ih (d + 1) (i + 1))

/-- Equal bytes and equal draws give equal operands. -/
theorem readBytes_congr {m n : Memory} (d i k : Nat)
    (h : ∀ j, i ≤ j → j < i + k → n.byteAt j = m.byteAt j) : readBytes n d i k = readBytes m d i k := by
  induction k generalizing d i with
  | zero => rfl
  | succ k ih =>
    have hi := h i (Nat.le_refl i) (by omega)
    have ht : ∀ e, readBytes n e (i + 1) k = readBytes m e (i + 1) k :=
      fun e => ih e (i + 1) (fun j h1 h2 => h j (by omega) (by omega))
    simp only [readBytes, hi, ht]

@[simp] theorem operand_length (s : State) : (operand s).length = s.srcLen.toNat :=
  readBytes_length _ _ _ _

theorem afterOperand_eq (s : State) : afterOperand s = { s with draws := s.operandDraws } := rfl

/-! ### Completions -/

@[simp] theorem Memory.holds_nil : Memory.holds [] [] := fun i => by simp

/-- A success: exactly the result's bytes are left in DST. -/
theorem succeed_recorded (out : List Byte) (s : State) (h : out.length < 2 ^ 32) :
    ∃ (m : Memory) (len : Word), succeed out s = s.recorded s.draws .eNone 0 len m ∧
      len.toNat = out.length ∧ m.holds out := by
  have hl : (BitVec.ofNat 32 out.length).toNat = out.length := by
    rw [BitVec.toNat_ofNat, Nat.mod_eq_of_lt h]
  refine ⟨_, BitVec.ofNat 32 out.length, rfl, hl, fun i => ?_⟩
  change Memory.byteAt (Memory.truncate (s.dst.putAll 0 out) (BitVec.ofNat 32 out.length).toNat) i = out[i]?
  rw [Memory.byteAt_truncate, Memory.byteAt_putAll, hl]
  by_cases hi : i < out.length
  · simp [hi]
  · simp [hi]

/-- A failure that leaves DST as it was (R75). -/
theorem complete_keeps {e : ErrCode} (info : Word) (s : State) (h : e.keepsDst = true) :
    complete e info s = s.recorded s.draws e info 0 s.dst := by
  cases e <;> first | rfl | exact absurd h (by decide)

/-- A failure that leaves DST unwritten (R75). -/
theorem complete_clears {e : ErrCode} (info : Word) (s : State) (he : e ≠ .eNone) (h : e.keepsDst = false) :
    complete e info s = s.recorded s.draws e info 0 [] := by
  have hd : dstAfter e s.dstLen s.dst = [] := by simp [dstAfter, he, h]
  have hs : Status.completed e =
      { busy := false, done := true, err := decide (e ≠ .eNone), errcode := e } := by
    cases e <;> rfl
  simp only [complete, State.recorded, hd, hs, if_neg he]

/-! ### The register map -/

theorem regAt_reserved {off : Nat} (h : off % 4 ≠ 0 ∨ 0x2C ≤ off) : regAt off = none := by
  unfold regAt
  split <;> first | omega | rfl

theorem regAt_offset (r : Reg) : regAt r.offset = some r := by cases r <;> rfl

theorem clampTo_toNat {cap : Nat} (v : Word) (h : cap ≤ 2 ^ 32 - 1) : (clampTo cap v).toNat = min v.toNat cap := by
  unfold clampTo
  split
  · omega
  · rw [BitVec.toNat_ofNat, Nat.mod_eq_of_lt (by omega)]; omega

theorem atLeastOne_toNat (v : Word) : (atLeastOne v).toNat = max v.toNat 1 := by
  unfold atLeastOne
  split
  · rename_i h; subst h; rfl
  · rename_i h
    have : v.toNat ≠ 0 := fun h' => h (BitVec.eq_of_toNat_eq (by simpa using h'))
    omega

/-! ### Parameters -/

theorem valid_iff (p : Params) : p.valid = true ↔
    (1 ≤ p.srcCap ∧ p.srcCap ≤ 2 ^ 32 - 1) ∧ (1 ≤ p.rxCap ∧ p.rxCap ≤ 2 ^ 32 - 1) ∧ 1 ≤ p.rdChunk ∧
    (p.srcCap + 2 + (p.srcCap + 2) / 254 + 1 ≤ p.dstCap ∧ p.rxCap ≤ p.dstCap ∧ 2 ≤ p.dstCap ∧
      p.dstCap ≤ 2 ^ 32 - 1) ∧
    (p.xerr.Nodup ∧ (0 : Word) ∉ p.xerr) := by
  simp only [Params.valid, Bool.and_eq_true, decide_eq_true_eq, and_assoc]

theorem params_valid : Config.params.valid = true := by
  unfold Config.params
  split
  · assumption
  · decide

end Sys2Proof.Machine
end

