-- ==== Sys2Proof/Laws/Exchange.lean ====
section
/-! SUPPORT. The operations of an exchange, each said once. -/

namespace Sys2Proof.Machine

/-- A failed attempt that exhausts the budget completes the command with the attempt's own error. -/
theorem attemptFail_last {e : ErrCode} (info : Word) {s : State} (he : e ≠ .eNone) (hk : e.keepsDst = false)
    (h : s.attemptIdx = s.latchN) :
    attemptFail e info s =
      State.recorded { s with lastErr := e, lastXerr := info } s.draws e info 0 [] := by
  rw [attemptFail, if_pos h, complete_clears info _ he hk]
  rfl

/-- A failed attempt with budget left starts the retry delay. -/
theorem attemptFail_retry (e : ErrCode) (info : Word) {s : State} (h : s.attemptIdx ≠ s.latchN) :
    attemptFail e info s =
      { s with lastErr := e, lastXerr := info, acc := [], tFail := s.now, phase := .delay } := by
  rw [attemptFail, if_neg h]

/-- A failed attempt does not look at what ACC holds. -/
theorem attemptFail_acc (e : ErrCode) (info : Word) (s : State) (m : List Byte) :
    attemptFail e info { s with acc := m } = attemptFail e info s := by
  rfl

/-- What a failed attempt leaves alone, whether or not budget is left. -/
theorem attemptFail_frame (e : ErrCode) (info : Word) (s : State) :
    (attemptFail e info s).params = s.params ∧ (attemptFail e info s).cmd = s.cmd ∧
    (attemptFail e info s).src = s.src ∧ (attemptFail e info s).srcLen = s.srcLen ∧
    (attemptFail e info s).dstLimit = s.dstLimit ∧ (attemptFail e info s).cfgAttempts = s.cfgAttempts ∧
    (attemptFail e info s).cfgRetryDelay = s.cfgRetryDelay ∧
    (attemptFail e info s).cfgReadTimeout = s.cfgReadTimeout ∧
    (attemptFail e info s).attemptIdx = s.attemptIdx ∧ (attemptFail e info s).now = s.now ∧
    (attemptFail e info s).txlog = s.txlog ∧ (attemptFail e info s).hist = s.hist ∧
    (attemptFail e info s).agenda = s.agenda ∧ (attemptFail e info s).draws = s.draws ∧
    (attemptFail e info s).reads = s.reads ∧ (attemptFail e info s).lastErr = e ∧
    (attemptFail e info s).lastXerr = info ∧ (attemptFail e info s).acc = [] := by
  simp only [attemptFail]
  split <;> simp

/-- A failed attempt either ends the command or waits: it never stays in its phase. -/
theorem attemptFail_phase (e : ErrCode) (info : Word) (s : State) :
    (attemptFail e info s).phase = if s.attemptIdx = s.latchN then .idle else .delay := by
  simp only [attemptFail]
  split <;> rfl

theorem xerrWord_of_get {p : Params} {e : TransportError} {w : Word} (h : p.xerr[e]? = some w) :
    xerrWord p e = w := by
  simp [xerrWord, h]

theorem xerrWord_ne_zero {p : Params} {e : TransportError} (hp : p.valid = true) (he : errorKnown p e = true) :
    xerrWord p e ≠ 0 := by
  have he : e < p.xerr.length := by simpa [errorKnown] using he
  have hz := ((valid_iff p).1 hp).2.2.2.2.2
  simp only [xerrWord, List.getD_eq_getElem?_getD, List.getElem?_eq_getElem he, Option.getD_some]
  exact fun h => hz (h ▸ List.getElem_mem he)

/-- The scan keeps the sentinel out of ACC and ACC within its capacity. -/
theorem scan_more {cap : Nat} {acc bs acc' : List Byte} (h : scan cap acc bs = .more acc') :
    acc' = acc ++ bs ∧ (0 : Byte) ∉ bs ∧ (acc.length ≤ cap → acc'.length ≤ cap) := by
  induction bs generalizing acc with
  | nil => simp only [scan, ScanEnd.more.injEq] at h; simp [← h]
  | cons v bs ih =>
    simp only [scan] at h
    split at h
    · exact absurd h (by simp)
    · split at h
      · exact absurd h (by simp)
      · rename_i hv hl
        obtain ⟨h1, h2, h3⟩ := ih h
        refine ⟨by simp [h1], ?_, fun ha => h3 ?_⟩
        · simp only [List.mem_cons, not_or]; exact ⟨fun h => hv h.symm, h2⟩
        · simp only [List.length_append, List.length_singleton]; omega

/-- A delivered message is what ACC held and the bytes before the first sentinel, within the capacity. -/
theorem scan_message {cap : Nat} {acc bs m : List Byte} (h : scan cap acc bs = .message m) :
    (∃ before after, bs = before ++ 0 :: after ∧ m = acc ++ before ∧ (0 : Byte) ∉ before) ∧
      (acc.length ≤ cap → m.length ≤ cap) := by
  induction bs generalizing acc with
  | nil => simp [scan] at h
  | cons v bs ih =>
    simp only [scan] at h
    split at h
    · rename_i hv
      simp only [ScanEnd.message.injEq] at h
      subst hv; subst h
      exact ⟨⟨[], bs, by simp⟩, id⟩
    · split at h
      · exact absurd h (by simp)
      · rename_i hv hl
        obtain ⟨⟨b, a, h1, h2, h3⟩, h4⟩ := ih h
        refine ⟨⟨v :: b, a, by simp [h1], by simp [h2], ?_⟩, fun ha => h4 ?_⟩
        · simp only [List.mem_cons, not_or]; exact ⟨fun h => hv h.symm, h3⟩
        · simp only [List.length_append, List.length_singleton]; omega

end Sys2Proof.Machine
end

