-- ==== Sys2Proof/Laws/Host.lean ====
section
/-! SUPPORT. What a host step can do, said once (spec/20_memory.md R62). -/

namespace Sys2Proof.Machine

/-- The effects of a host step: a read only records what it returned, with a draw at most; a write has an effect only while
BUSY is 0. -/
inductive HostMove (s : State) : HostStep → State → Prop where
  | read (h : HostStep) (d : Nat) (r : ReadResult) (hd : s.draws ≤ d) :
      HostMove s h { s with draws := d, reads := s.reads ++ [r] }
  | ignored (h : HostStep) : HostMove s h s
  | command (w : Word) (hb : s.status.busy = false) : HostMove s (.regWrite 0x00 w) (acceptCommand w s)
  | srcLen (v : Word) (hb : s.status.busy = false) :
      HostMove s (.regWrite 0x08 v) { s with srcLen := clampTo s.params.srcCap v }
  | dstLimit (v : Word) (hb : s.status.busy = false) :
      HostMove s (.regWrite 0x0C v) { s with dstLimit := clampTo s.params.dstCap v }
  | attempts (v : Word) (hb : s.status.busy = false) :
      HostMove s (.regWrite 0x14 v) { s with cfgAttempts := atLeastOne v }
  | retryDelay (v : Word) (hb : s.status.busy = false) : HostMove s (.regWrite 0x18 v) { s with cfgRetryDelay := v }
  | readTimeout (v : Word) (hb : s.status.busy = false) : HostMove s (.regWrite 0x1C v) { s with cfgReadTimeout := v }
  | srcByte (i : Nat) (b : Byte) (hb : s.status.busy = false) (hi : i < s.params.srcCap) :
      HostMove s (.srcWrite i b) { s with src := s.src.put i b }
  | reset : HostMove s .reset (hostReset s)

theorem regAt_eq {off : Nat} {r : Reg} (h : regAt off = some r) : off = r.offset := by
  unfold regAt at h
  split at h <;> first | (cases h; rfl) | exact absurd h (by simp)

theorem returnByte_move (b : Option Byte) (s : State) (h : HostStep) : HostMove s h (returnByte b s) := by
  cases b with
  | some b => exact .read h s.draws (.byte b) (Nat.le_refl _)
  | none => exact .read h (s.draws + 1) (.byte (Config.freeByte s.draws)) (Nat.le_succ _)

theorem hostStep_move (h : HostStep) (s : State) : HostMove s h (hostStep h s) := by
  cases h with
  | regWrite off w =>
    simp only [hostStep, regWrite]
    by_cases hb : s.status.busy = true
    · rw [if_pos hb]; exact .ignored _
    rw [if_neg hb]
    have hb : s.status.busy = false := by simpa using hb
    split
    · rename_i r hr
      obtain rfl := regAt_eq hr
      cases r
      case cmd => exact .command w hb
      case srcLen => exact .srcLen w hb
      case dstLimit => exact .dstLimit w hb
      case cfgAttempts => exact .attempts w hb
      case cfgRetryDelay => exact .retryDelay w hb
      case cfgReadTimeout => exact .readTimeout w hb
      all_goals exact .ignored _
    · exact .ignored _
  | regRead off => exact .read _ s.draws _ (Nat.le_refl _)
  | srcWrite i b =>
    simp only [hostStep, srcWrite]
    split
    · rename_i h; exact .srcByte i b h.1 h.2
    · exact .ignored _
  | srcRead i =>
    simp only [hostStep, srcRead]
    split
    · exact returnByte_move _ _ _
    · exact .read _ s.draws _ (Nat.le_refl _)
  | dstRead i =>
    simp only [hostStep, dstRead]
    split
    · exact .read _ s.draws _ (Nat.le_refl _)
    · split <;> exact returnByte_move _ _ _
  | reset => exact .reset

end Sys2Proof.Machine
end

