-- ==== Sys2Proof/Laws/PerInstr.lean ====
section
/-! SUPPORT. What holds of every command as syntax: the form of its word (spec/30_encoding.md R90 to R93). -/

namespace Sys2Proof.Laws.CommandWord

/-- The command is well-formed, its word is well-formed, has RSVD = 0 and its own OPC, and has no bit above bit 2. -/
def Statement (i : Instr) : Prop :=
  i.wellFormed = true ∧ wordWellFormed (Sys2Proof.encode i) = true ∧ rsvdField (Sys2Proof.encode i) = 0 ∧
    opcField (Sys2Proof.encode i) = opcodeOf i ∧ (Sys2Proof.encode i).toNat < 8

theorem encode : Statement .encode := ⟨rfl, by decide, by decide, by decide, by decide⟩
theorem decode : Statement .decode := ⟨rfl, by decide, by decide, by decide, by decide⟩
theorem checksum : Statement .checksum := ⟨rfl, by decide, by decide, by decide, by decide⟩
theorem encodeFrame : Statement .encodeFrame := ⟨rfl, by decide, by decide, by decide, by decide⟩
theorem decodeFrame : Statement .decodeFrame := ⟨rfl, by decide, by decide, by decide, by decide⟩
theorem exchange : Statement .exchange := ⟨rfl, by decide, by decide, by decide, by decide⟩

end Sys2Proof.Laws.CommandWord
end

