-- ==== Sys2Proof/Laws/Step.lean ====
section
/-! SUPPORT. What a step can do, said once: the transition table of spec/43_exchange.md R204 with the Clock's, the host's
and the other commands' steps. -/

namespace Sys2Proof.Machine

/-- The moves of the Core, the Transport and the Clock.  `plan` is a turn that changes nothing of the CORE, its environment or its draws: a turn
not enabled, a `poll` or a `readBack`. -/
inductive Move (s : State) : State → Prop where
  | illegal (e : DecodeError) (hp : s.phase = .exec) (hd : decode s.cmd = .error e) :
      Move s (complete .eIllegalCmd 0 s)
  | command (i : Instr) (t : State) (hp : s.phase = .exec) (hd : decode s.cmd = .ok i) (ht : exec i s = .next t) :
      Move s t
  | observe (r : ReadAnswer) (hp : s.phase = .read) (hr : s.rd = .completed r) : Move s (observe r s)
  | timeout (hp : s.phase = .read) (hd : deadlineFired s = true) : Move s (timeout s)
  | delayEnd (hp : s.phase = .delay) (hd : delayOver s = true) : Move s (beginAttempt s)
  | writeDone (r : List Byte) (n : Nat) (e : Option TransportError) (hp : s.phase = .write) (hw : s.wr = some r)
      (ha : writeAnswerOk s.params r n e = true) : Move s (writeDone r n e s)
  | readDone (r : ReadAnswer) (hp : s.phase = .read) (hr : s.rd = .pending)
      (ha : readAnswerOk s.params r = true) : Move s (readDone r s)
  | tick : Move s (tick s)
  | plan (a : List Turn) (rs : List ReadResult) : Move s { s with agenda := a, reads := s.reads ++ rs }

theorem Move.stay (s : State) : Move s s := by
  simpa using Move.plan (s := s) s.agenda []

/-- Every command answers a next state. -/
theorem exec_next (i : Instr) (s : State) : ∃ t, exec i s = .next t := by
  cases i
  case encode => simp only [exec, execEncode]; split <;> [skip; split] <;> exact ⟨_, rfl⟩
  case exchange => simp only [exec, execExchange]; split <;> exact ⟨_, rfl⟩
  all_goals exact ⟨_, rfl⟩

theorem execCommand_move {s : State} (hp : s.phase = .exec) : ∃ t, execCommand s = .next t ∧ Move s t := by
  simp only [execCommand]
  split
  · rename_i i hd
    obtain ⟨t, ht⟩ := exec_next i s
    exact ⟨t, ht, .command i t hp hd ht⟩
  · rename_i e hd
    exact ⟨_, rfl, .illegal e hp hd⟩

theorem coreEffect_move {c : CoreStep} {s : State} (h : coreEnabled c s = true) :
    ∃ t, coreEffect c s = .next t ∧ Move s t := by
  cases c with
  | exec => exact execCommand_move (by simpa [coreEnabled] using h)
  | observe =>
    simp only [coreEnabled] at h
    simp only [coreEffect]
    split at h
    · rename_i r hr
      exact ⟨_, rfl, .observe r (by simpa using h) hr⟩
    · exact absurd h (by simp)
    · exact absurd h (by simp)
  | timeout =>
    simp only [coreEnabled, Bool.and_eq_true, beq_iff_eq] at h
    exact ⟨_, rfl, .timeout h.1 h.2⟩
  | delayEnd =>
    simp only [coreEnabled, Bool.and_eq_true, beq_iff_eq] at h
    exact ⟨_, rfl, .delayEnd h.1 h.2⟩

theorem coreStep_move (c : CoreStep) (s : State) : ∃ t, coreStep c s = .next t ∧ Move s t := by
  simp only [coreStep]
  split
  · rename_i h; exact coreEffect_move h
  · exact ⟨s, rfl, .stay s⟩

theorem transportStep_move (a : TransportStep) (s : State) : Move s (transportStep a s) := by
  cases a with
  | writeDone n e =>
    simp only [transportStep]
    split
    · rename_i r hr
      split
      · rename_i h; exact .writeDone r n e h.1 hr h.2
      · exact .stay s
    · exact .stay s
  | readDone r =>
    simp only [transportStep]
    split
    · rename_i h; exact .readDone r h.1 h.2.1 h.2.2
    · exact .stay s

/-- Which Core steps are enabled does not depend on the draws. -/
theorem coreEnabled_draws (c : CoreStep) (s : State) (d : Nat) :
    coreEnabled c { s with draws := d } = coreEnabled c s := by
  cases c <;> rfl

theorem ownMove_move (s : State) :
    ∃ (d : Nat) (t : State), s.draws ≤ d ∧ ownMove s = .next t ∧ Move { s with draws := d } t := by
  have hs : Move s = Move { s with draws := s.draws } := rfl
  simp only [ownMove]
  by_cases h1 : coreEnabled .exec s = true
  · obtain ⟨t, h, hm⟩ := coreEffect_move h1
    exact ⟨s.draws, t, Nat.le_refl _, by rw [if_pos h1, h], hm⟩
  rw [if_neg h1]
  by_cases h2 : (coreEnabled .observe s && coreEnabled .timeout s) = true
  · rw [if_pos h2]
    rw [Bool.and_eq_true] at h2
    refine ⟨s.draws + 1, ?_⟩
    by_cases h3 : (drawBool s).1 = true
    · obtain ⟨t, h, hm⟩ := coreEffect_move (c := .observe) (s := { s with draws := s.draws + 1 }) h2.1
      exact ⟨t, Nat.le_succ _, by rw [if_pos h3]; exact h, hm⟩
    · obtain ⟨t, h, hm⟩ := coreEffect_move (c := .timeout) (s := { s with draws := s.draws + 1 }) h2.2
      exact ⟨t, Nat.le_succ _, by rw [if_neg h3]; exact h, hm⟩
  rw [if_neg h2]
  by_cases h3 : coreEnabled .observe s = true
  · obtain ⟨t, h, hm⟩ := coreEffect_move h3
    exact ⟨s.draws, t, Nat.le_refl _, by rw [if_pos h3, h], hm⟩
  rw [if_neg h3]
  by_cases h4 : coreEnabled .timeout s = true
  · obtain ⟨t, h, hm⟩ := coreEffect_move h4
    exact ⟨s.draws, t, Nat.le_refl _, by rw [if_pos h4, h], hm⟩
  rw [if_neg h4]
  by_cases h5 : coreEnabled .delayEnd s = true
  · obtain ⟨t, h, hm⟩ := coreEffect_move h5
    exact ⟨s.draws, t, Nat.le_refl _, by rw [if_pos h5, h], hm⟩
  exact ⟨s.draws, tick s, Nat.le_refl _, by rw [if_neg h5], .tick⟩

theorem takeTurn_move (x : Turn) (s : State) (hx : ∀ h, x ≠ .host h) :
    ∃ (d : Nat) (t : State), s.draws ≤ d ∧ takeTurn x s = .next t ∧ Move { s with draws := d } t := by
  cases x with
  | host h => exact absurd rfl (hx h)
  | core c =>
    obtain ⟨t, h, hm⟩ := coreStep_move c s
    exact ⟨s.draws, t, Nat.le_refl _, h, hm⟩
  | transport a => exact ⟨s.draws, _, Nat.le_refl _, rfl, transportStep_move a s⟩
  | tick => exact ⟨s.draws, _, Nat.le_refl _, rfl, .tick⟩
  | own => exact ownMove_move s
  | poll =>
    refine ⟨s.draws, _, Nat.le_refl _, rfl, ?_⟩
    simp only [pollStep]
    split
    · exact .plan (s := s) _ [_]
    · exact .plan (s := s) s.agenda [_]
  | readBack =>
    refine ⟨s.draws, _, Nat.le_refl _, rfl, ?_⟩
    simp only [readBackStep]
    split
    · simpa using Move.plan (s := s) _ []
    · exact .stay s
    · exact .stay s

/-- A step always answers a next state: the host's step whose turn it is, or a move of another agent from the state with
some plan and draws. -/
theorem step_move (s : State) :
    (∃ (h : HostStep) (rest : List Turn), s.agenda = .host h :: rest ∧
      step s = .next (hostStep h { s with agenda := rest })) ∨
    (∃ (a : List Turn) (d : Nat) (t : State), s.draws ≤ d ∧ step s = .next t ∧
      Move { s with agenda := a, draws := d } t) := by
  cases h : s.agenda with
  | nil =>
    obtain ⟨d, t, hd, ht, hm⟩ := ownMove_move s
    refine .inr ⟨s.agenda, d, t, hd, ?_, hm⟩
    simp only [step, h]
    exact ht
  | cons x rest =>
    by_cases hx : ∃ y, x = .host y
    · obtain ⟨y, rfl⟩ := hx
      exact .inl ⟨y, rest, rfl, by simp only [step, h, takeTurn]⟩
    · obtain ⟨d, t, hd, ht, hm⟩ := takeTurn_move x { s with agenda := rest } (fun y hy => hx ⟨y, hy⟩)
      refine .inr ⟨rest, d, t, hd, ?_, hm⟩
      simp only [step, h]
      exact ht

/-- The invariant does not look at the plan, the draws or what the host's reads returned. -/
theorem State.Inv.replan {s : State} (h : s.Inv) (a : List Turn) (d : Nat) (rs : List ReadResult) :
    State.Inv { s with agenda := a, draws := d, reads := rs } :=
  ⟨⟨h.1.1, h.1.2, h.1.3, h.1.4, h.1.5, h.1.6, h.1.7, h.1.8, h.1.9⟩,
    ⟨h.2.1, h.2.2, h.2.3, h.2.4, h.2.5, h.2.6, h.2.7⟩,
    ⟨h.3.1, h.3.2, h.3.3, h.3.4, h.3.5, h.3.6, h.3.7, h.3.8⟩,
    ⟨h.4.1, h.4.2, h.4.3, h.4.4, h.4.5, h.4.6, h.4.7⟩⟩

end Sys2Proof.Machine
end

