-- ==== Sys2Proof/Tests/Slice0.lean ====
section
/-! SUPPORT. The model's own tests.  Every expected result is the spec's: the encodings of spec/30_encoding.md and the
vectors of spec/95_test_vectors.md, named in each test. -/

namespace Sys2Proof.Tests

open Sys2Proof.Machine

/-- A small implementation: 16-byte SRC, ACC of 4 bytes, reads of 4 bytes (the P_RX_CAP of vectors X7, X7b). -/
def small : Params := { srcCap := 16, dstCap := 32, rxCap := 4, rdChunk := 6, xerr := [0xE1, 0xE2] }

/-- The state after power-on with `bs` in SRC and its length in SRC_LEN. -/
def loaded (bs : List Byte) : State :=
  { State.powerOn small with src := Memory.putAll [] 0 bs, srcLen := BitVec.ofNat 32 bs.length }

/-- That state with command `i` accepted. -/
def ready (i : Instr) (bs : List Byte) : State := acceptCommand (encode i) (loaded bs)

/-- A read loop of an exchange with budget `n` and read timeout 10, in its first attempt at time 0. -/
def reading (n : Word) (rd : ReadReq) : State :=
  { ready .exchange [4, 1, 1, 1, 0] with
    cfgAttempts := n, cfgReadTimeout := 10, phase := .read, rd := rd, attemptIdx := 1
    reqLen := 5, req := [4, 1, 1, 1, 0], latchN := n, latchT := 10 }

/-- The next state, if there is one. -/
def nextOf (o : Host.Outcome State Fault Refusal) : Option State :=
  match o with
  | .next t => some t
  | .fault _ => none
  | .refused _ => none

/-- What the next state shows of its result: ERRCODE, DST_LEN and the listed bytes of DST. -/
def result (o : Host.Outcome State Fault Refusal) : Option (ErrCode × Nat × List (Nat × Byte)) :=
  (nextOf o).map (fun t => (t.status.errcode, t.dstLen.toNat, t.dst))

/-! ### Well-formedness: an ill-formed term for each check -/

theorem test_reserved_bits_refused : reservedClear 0x00000107 = false := by decide
theorem test_opcode_zero_refused : opcodeAssigned 0x00000000 = false := by decide
theorem test_opcode_seven_refused : opcodeAssigned 0x00000007 = false := by decide
theorem test_word_with_reserved_bits_refused : wordWellFormed 0x80000001 = false := by decide
theorem test_instructions_wellFormed :
    ∀ i ∈ [Instr.encode, .decode, .checksum, .encodeFrame, .decodeFrame, .exchange], i.wellFormed = true := by decide
theorem test_params_small_valid : small.valid = true := by decide
theorem test_params_srcCap_refused : Params.valid { small with srcCap := 0 } = false := by decide
theorem test_params_rxCap_refused : Params.valid { small with rxCap := 0 } = false := by decide
theorem test_params_rdChunk_refused : Params.valid { small with rdChunk := 0 } = false := by decide
theorem test_params_dstCap_refused : Params.valid { small with dstCap := 18 } = false := by decide
theorem test_params_xerr_repeat_refused : Params.valid { small with xerr := [5, 5] } = false := by decide
theorem test_params_xerr_zero_refused : Params.valid { small with xerr := [5, 0] } = false := by decide

/-! ### Decoding: the words of R91, bits[31:8] = 0 -/

theorem test_decode_encode : decode 0b00000000000000000000000000000001#32 = .ok .encode := by rfl
theorem test_decode_decode : decode 0b00000000000000000000000000000010#32 = .ok .decode := by rfl
theorem test_decode_checksum : decode 0b00000000000000000000000000000011#32 = .ok .checksum := by rfl
theorem test_decode_encodeFrame : decode 0b00000000000000000000000000000100#32 = .ok .encodeFrame := by rfl
theorem test_decode_decodeFrame : decode 0b00000000000000000000000000000101#32 = .ok .decodeFrame := by rfl
theorem test_decode_exchange : decode 0b00000000000000000000000000000110#32 = .ok .exchange := by rfl
theorem test_decode_reserved : decode 0x00000107#32 = .error .reservedBits := by rfl
theorem test_decode_unassigned : decode 0x000000FF#32 = .error .unassignedOpcode := by rfl
theorem test_table_word : decodeTableWord 32 6 = some .exchange := by rfl

/-! ### The commands -/

/-- Vector E18, S4. -/
theorem test_encode : result (exec .encode (ready .encode [1, 1, 1, 0, 0, 5, 0])) =
    some (.eNone, 8, [(0, 4), (1, 1), (2, 1), (3, 1), (4, 1), (5, 2), (6, 5), (7, 1)]) := by decide

/-- Vector E20: DST is unchanged. -/
theorem test_encode_too_small :
    result (exec .encode { ready .encode [0x11, 0x22, 0x33] with dstLimit := 3, dst := [(9, 7)] }) =
      some (.eEncDstTooSmall, 0, [(9, 7)]) := by decide

/-- Vector D20, S5. -/
theorem test_decode : result (exec .decode { ready .decode [4, 1, 1, 1, 1, 2, 5, 1] with dstLimit := 8 }) =
    some (.eNone, 7, [(0, 1), (1, 1), (2, 1), (3, 0), (4, 0), (5, 5), (6, 0)]) := by decide

/-- Vector D14: the phantom zero counts. -/
theorem test_decode_phantom :
    result (exec .decode { ready .decode [3, 0x11, 0x22] with dstLimit := 2, dst := [(0, 9)] }) =
      some (.eDecDstTooShort, 0, []) := by decide

/-- Vector K10, S3. -/
theorem test_checksum : result (exec .checksum (ready .checksum [1, 2, 3, 4, 5, 6])) =
    some (.eNone, 2, [(0, 0x15), (1, 0x38)]) := by decide

/-- Vector K4: a wraps to 0 mod 255. -/
theorem test_checksum_wrap : result (exec .checksum (ready .checksum [0xFE, 1])) =
    some (.eNone, 2, [(0, 0), (1, 0xFE)]) := by decide

/-- Vector F7. -/
theorem test_encodeFrame : result (exec .encodeFrame (ready .encodeFrame [0xFF])) =
    some (.eNone, 4, [(0, 2), (1, 0xFF), (2, 1), (3, 1)]) := by decide

/-- Vector F1: the empty payload. -/
theorem test_encodeFrame_empty : result (exec .encodeFrame (ready .encodeFrame [])) =
    some (.eNone, 3, [(0, 1), (1, 1), (2, 1)]) := by decide

/-- Vector G6. -/
theorem test_decodeFrame : result (exec .decodeFrame (ready .decodeFrame [4, 7, 7, 7])) =
    some (.eNone, 1, [(0, 7)]) := by decide

/-- Vector G8. -/
theorem test_decodeFrame_mismatch : result (exec .decodeFrame (ready .decodeFrame [4, 1, 2, 1])) =
    some (.eChecksumMismatch, 0, []) := by decide

/-- X_START of section 6: the request is put to the transport and the attempt counted. -/
theorem test_exchange : (nextOf (exec .exchange (ready .exchange [4, 1, 1, 1, 0]))).map
    (fun t => (t.phase, t.wr, t.attemptIdx, t.hist)) =
      some (.write, some [4, 1, 1, 1, 0], 1, [.writeReq [4, 1, 1, 1, 0]]) := by decide

/-- Vector X6: no delimiter, no attempt. -/
theorem test_exchange_malformed : (nextOf (exec .exchange (ready .exchange [4, 1, 1, 1]))).map
    (fun t => (t.status.word, t.attemptIdx, t.hist)) = some (0x00003006, 0, []) := by decide

/-- Vector P5: an illegal word. -/
theorem test_illegal_word : (nextOf (execCommand (acceptCommand 0x00000107 (loaded [])))).map
    (fun t => t.status.word) = some 0x00000106 := by decide

/-! ### The steps of an exchange -/

/-- Vector X3: a short write. -/
theorem test_short_write :
    (transportStep (.writeDone 3 none)
      (beginAttempt (latchConfig (latchRequest (ready .exchange [4, 1, 1, 1, 0]))))).txlog = [4, 1, 1] ∧
    (transportStep (.writeDone 3 none)
      (beginAttempt (latchConfig (latchRequest (ready .exchange [4, 1, 1, 1, 0]))))).status.word = 0x00003206 := by
  decide

/-- Vectors X7b and X1: a sentinel at a full ACC is delivered, the byte after it dropped. -/
theorem test_observe_delivers :
    result (coreStep .observe (reading 1 (.completed (.chunk [4, 7, 7, 7, 0, 0x55])))) =
      some (.eNone, 1, [(0, 7)]) := by decide

/-- Vector X7: the fifth non-zero byte overflows ACC. -/
theorem test_observe_overflow :
    (nextOf (coreStep .observe (reading 1 (.completed (.chunk [4, 7, 7, 7, 7, 0]))))).map (fun t => t.status.word) =
      some 0x00003606 := by decide

/-- Vector X8: a read error keeps the transport's own error. -/
theorem test_observe_error :
    (nextOf (coreStep .observe (reading 1 (.completed (.rdErr 1))))).map (fun t => (t.status.word, t.xerr)) =
      some (0x00003506, 0xE2) := by decide

/-- Vector X5: no answer by the deadline. -/
theorem test_timeout :
    (nextOf (coreStep .timeout { reading 1 .pending with now := 10 })).map (fun t => (t.status.word, t.hist)) =
      some (0x00003406, [.readCancel]) := by decide

/-- R191: no timeout before the deadline. -/
theorem test_no_early_timeout :
    nextOf (coreStep .timeout { reading 1 .pending with now := 9 }) = some { reading 1 .pending with now := 9 } := by
  decide

/-- Vector X10: a failure with budget left waits out the delay, and the next attempt follows it. -/
theorem test_retry :
    (nextOf (coreStep .observe (reading 2 (.completed (.chunk [4, 7, 7, 8, 0]))))).map
      (fun t => (t.phase, t.lastErr, t.status.busy)) = some (.delay, .eChecksumMismatch, true) := by decide

theorem test_delay_end :
    (nextOf (coreStep .delayEnd { reading 2 .none with phase := .delay, latchD := 5, now := 5 })).map
      (fun t => (t.phase, t.attemptIdx)) = some (.write, 2) := by decide

/-! ### The host -/

/-- R32: CFG_ATTEMPTS stores at least 1. -/
theorem test_attempts_clamp : (hostStep (.regWrite 0x14 0) (loaded [])).cfgAttempts = 1 := by decide

/-- R30: SRC_LEN stores at most P_SRC_CAP. -/
theorem test_srcLen_clamp : (hostStep (.regWrite 0x08 17) (loaded [])).srcLen = 16 := by decide

/-- R65: a write while BUSY = 1 is ignored. -/
theorem test_busy_write_ignored :
    hostStep (.regWrite 0x08 9) (ready .exchange [0]) = ready .exchange [0] := by decide

/-- R25, R29: STATUS reads 0x00000001 once a command is accepted. -/
theorem test_read_status :
    (hostStep (.regRead 0x04) (ready .encode [])).reads = [.word 0x00000001] := by decide

/-- R260: reset in the middle of an exchange. -/
theorem test_reset_in_read :
    (hostStep .reset (reading 1 .pending)).hist = [.readCancel] ∧
    (hostStep .reset (reading 1 .pending)).cfgAttempts = 1 := by decide

/-- Program P1: the bus transactions of `wr SRC_LEN, 3` and `wsrc 5, 0A`. -/
theorem test_bus_text :
    HostStep.text (.regWrite 0x08 3) = "W REG 0x08 00000003" ∧
    HostStep.text (.srcWrite 5 0x0A) = "W SRC 5 0A" ∧ HostStep.text (.regRead 0x12C) = "R REG 0x12C" := by decide

/-- Program P2: the bus transactions of `run ENCODE_FRAME`. -/
theorem test_program_encoding :
    encodeProgram [.load [1], .run .encodeFrame] =
      ["W SRC 0 01", "W REG 0x08 00000001", "W REG 0x00 00000004",
        "R REG 0x04 (repeat while bit 0 = 1)"] := by decide

/-- Section 7: `load 01` then `cmd ENCODE_FRAME`. -/
theorem test_asm_turns :
    [AsmStmt.load [1], .cmd .encodeFrame].flatMap AsmStmt.turns =
      [.host (.srcWrite 0 1), .host (.regWrite 0x08 1), .host (.regWrite 0x00 4)] := by decide

/-! ### A placed word is fetched and run -/

theorem test_placed_word_runs :
    (nextOf (step (State.reset.withFetchWord 32 3))).map (fun t => (t.cmd, t.phase, t.status.word)) =
      some (3, .idle, 0x00000002) := by decide

/-- R101: a planned answer of another agent comes before `poll` reads again. -/
theorem test_poll_lets_environment_pass :
    pollAgain [.transport (.writeDone 5 none), .tick] = [.transport (.writeDone 5 none), .poll, .tick] ∧
    pollAgain [rdTurn .dstLen] = [.own, .poll, rdTurn .dstLen] := by decide

/-! ### Witnesses: states and operands that meet the hypotheses of the statements -/

/-- `s` with the turns `a` planned. -/
def planned (a : List Turn) (s : State) : State := { s with agenda := a }

/-- The first attempt of an exchange, its write at the transport. -/
def writing : State := beginAttempt (latchConfig (latchRequest { ready .exchange [4, 1, 1, 1, 0] with cfgAttempts := 2 }))

/-- The same, after a failed write: the retry delay of 5 ticks. -/
def delaying : State :=
  { writing with
    cfgRetryDelay := 5, latchD := 5, wr := none, phase := .delay, lastErr := .eShortWrite
    hist := [.writeReq [4, 1, 1, 1, 0], .writeDone 3 none], txlog := [4, 1, 1] }

/-- After a command that gave the result [7]. -/
def finished : State := succeed [7] (ready .decodeFrame [4, 7, 7, 7])

theorem witness_inv_powerOn : (State.powerOn small).Inv := by
  refine ⟨⟨?_, ?_, ?_, ?_, ?_, ?_, ?_, ?_, ?_⟩, ⟨?_, ?_, ?_, ?_, ?_, ?_, ?_⟩, ⟨?_, ?_, ?_, ?_, ?_, ?_, ?_, ?_⟩,
    ⟨?_, ?_, ?_, ?_, ?_, ?_, ?_⟩⟩ <;> simp [State.powerOn, Memory.below, State.inExchange, small, Params.valid]

theorem witness_inv_exec : (ready .exchange [4, 1, 1, 1, 0]).Inv := by
  refine ⟨⟨?_, ?_, ?_, ?_, ?_, ?_, ?_, ?_, ?_⟩, ⟨?_, ?_, ?_, ?_, ?_, ?_, ?_⟩, ⟨?_, ?_, ?_, ?_, ?_, ?_, ?_, ?_⟩,
    ⟨?_, ?_, ?_, ?_, ?_, ?_, ?_⟩⟩ <;>
    simp [ready, acceptCommand, Status.accepted, loaded, State.powerOn, Memory.putAll, Memory.put, Memory.below,
      State.inExchange, small, Params.valid]

theorem witness_inv_writing : writing.Inv := by
  refine ⟨⟨?_, ?_, ?_, ?_, ?_, ?_, ?_, ?_, ?_⟩, ⟨?_, ?_, ?_, ?_, ?_, ?_, ?_⟩, ⟨?_, ?_, ?_, ?_, ?_, ?_, ?_, ?_⟩,
    ⟨?_, ?_, ?_, ?_, ?_, ?_, ?_⟩⟩ <;>
    simp [writing, beginAttempt, latchConfig, latchRequest, afterOperand, operand, readBytes, Memory.byteAt,
      requestOk, ready, acceptCommand, Status.accepted, loaded, State.powerOn, Memory.putAll, Memory.put, Memory.below,
      State.inExchange, small, Params.valid]

theorem witness_inv_delaying : delaying.Inv := by
  refine ⟨⟨?_, ?_, ?_, ?_, ?_, ?_, ?_, ?_, ?_⟩, ⟨?_, ?_, ?_, ?_, ?_, ?_, ?_⟩, ⟨?_, ?_, ?_, ?_, ?_, ?_, ?_, ?_⟩,
    ⟨?_, ?_, ?_, ?_, ?_, ?_, ?_⟩⟩ <;>
    simp [delaying, writing, beginAttempt, latchConfig, latchRequest, afterOperand, operand, readBytes, Memory.byteAt,
      requestOk, ready, acceptCommand, Status.accepted, loaded, State.powerOn, Memory.putAll, Memory.put, Memory.below,
      State.inExchange, small, Params.valid]

/-- A read loop whose answer waits to be observed, its deadline fired. -/
theorem witness_inv_reading :
    State.Inv { reading 2 (.completed (.chunk [4, 7, 7, 7, 0, 0x55])) with now := 10 } := by
  refine ⟨⟨?_, ?_, ?_, ?_, ?_, ?_, ?_, ?_, ?_⟩, ⟨?_, ?_, ?_, ?_, ?_, ?_, ?_⟩, ⟨?_, ?_, ?_, ?_, ?_, ?_, ?_, ?_⟩,
    ⟨?_, ?_, ?_, ?_, ?_, ?_, ?_⟩⟩ <;>
    simp [reading, readAnswerOk, requestOk, ready, acceptCommand, Status.accepted, loaded, State.powerOn,
      Memory.putAll, Memory.put, Memory.below, State.inExchange, small, Params.valid]

theorem witness_inv_finished : finished.Inv := by
  refine ⟨⟨?_, ?_, ?_, ?_, ?_, ?_, ?_, ?_, ?_⟩, ⟨?_, ?_, ?_, ?_, ?_, ?_, ?_⟩, ⟨?_, ?_, ?_, ?_, ?_, ?_, ?_, ?_⟩,
    ⟨?_, ?_, ?_, ?_, ?_, ?_, ?_⟩⟩ <;>
    simp [finished, succeed, complete, dstAfter, Memory.truncate, Status.completed, Memory.byteAt, ready, acceptCommand,
      loaded, State.powerOn, Memory.putAll, Memory.put, Memory.below, State.inExchange, small, Params.valid]
  intro i; split <;> simp_all [Memory.unlisted]

/-! Reset. -/

theorem witness_PowerOnIsReset :
    State.reset.params = Config.params ∧ State.reset.now = 0 ∧ State.reset.txlog = [] ∧ State.reset.hist = [] ∧
      State.reset.wr = none ∧ State.reset.rd = .none := ⟨rfl, rfl, rfl, rfl, rfl, rfl⟩

theorem witness_ResetStepLeavesResetValues :
    (planned [.host .reset] writing).agenda = [.host .reset] ∧ writing.wr = some [4, 1, 1, 1, 0] ∧
      (planned [.host .reset] (reading 1 .pending)).agenda = [.host .reset] ∧ (reading 1 .pending).wr = none := by
  decide

/-! Commands and their words. -/

/-- One word for each clause, at its boundary. -/
theorem witness_IllegalWordCompletes :
    (planned [.core .exec] (acceptCommand 0x00000101 (loaded []))).agenda = [.core .exec] ∧
    (acceptCommand 0x00000101 (loaded [])).phase = .exec ∧
    (0x00000101 : Word).extractLsb' 8 24 ≠ 0 ∧ (0x00000000 : Word).extractLsb' 0 8 = 0 ∧
    7 ≤ ((0x00000007 : Word).extractLsb' 0 8).toNat := by decide

theorem witness_StepRunsDecodedCommand :
    (ready .exchange [0]).phase = .exec ∧ decode (ready .exchange [0]).cmd = .ok .exchange ∧
    (planned [.core .exec] (ready .exchange [0])).agenda = [.core .exec] ∧
    (planned [.own] (ready .exchange [0])).agenda = [.own] ∧ (ready .exchange [0]).agenda = [] :=
  ⟨rfl, rfl, rfl, rfl, rfl⟩

theorem witness_CmdWriteStartsCommand :
    (planned [.host (.regWrite 0x00 6)] (loaded [])).agenda = [.host (.regWrite 0x00 6)] ∧
    (loaded []).status.busy = false ∧ (ready .encode []).status.busy = true := by decide

theorem witness_commands_complete :
    (ready .encode []).srcLen = 0 ∧
    ((ready .encode [1, 2, 3]).srcLen ≠ 0 ∧ 3 < 3 + 3 / 254 + 1) ∧
    (ready .encode [1, 2, 3]).srcLen.toNat + (ready .encode [1, 2, 3]).srcLen.toNat / 254 + 1 ≤
      { ready .encode [1, 2, 3] with dstLimit := 4 }.dstLimit.toNat ∧
    { ready .encode [1, 2, 3] with dstLimit := 3 }.dstLimit.toNat <
      (ready .encode [1, 2, 3]).srcLen.toNat + (ready .encode [1, 2, 3]).srcLen.toNat / 254 + 1 := by decide

theorem witness_DecodeCompletes :
    cobsDecode (operand (ready .decode [3, 0x11, 0x22])) 3 = .ok [0x11, 0x22] ∧
    cobsDecode (operand (ready .decode [3, 0x11, 0x22])) 2 = .error .eDecDstTooShort :=
  ⟨rfl, rfl⟩

theorem witness_EncodeFrameCompletes :
    (ready .encodeFrame [1]).params.valid = true ∧
    (ready .encodeFrame [1]).srcLen.toNat ≤ (ready .encodeFrame [1]).params.srcCap := by decide

theorem witness_DecodeFrameCompletes :
    frameDecode (operand (ready .decodeFrame [4, 7, 7, 7])) = .ok [7] ∧
    frameDecode (operand (ready .decodeFrame [2, 5])) = .error .eMsgTooShort := ⟨rfl, rfl⟩

theorem witness_ExchangeStarts :
    (operand (ready .exchange [4, 1, 1, 1, 0])).getLast? = some 0 ∧
    (operand (ready .exchange [])).getLast? ≠ some 0 := by decide

/-! The register file and the buffers. -/

theorem witness_RegisterReads :
    (planned [.host (.regRead 0x28)] (loaded [])).agenda = [.host (.regRead 0x28)] ∧
    (0x29 % 4 ≠ 0 ∧ 0x2C ≤ 0x2C) := by decide

theorem witness_RegisterWritesClamp :
    (planned [.host (.regWrite 0x08 17)] (loaded [])).agenda = [.host (.regWrite 0x08 17)] ∧
    (planned [.host (.regWrite 0x0C 33)] (loaded [])).agenda = [.host (.regWrite 0x0C 33)] ∧
    (planned [.host (.regWrite 0x14 0)] (loaded [])).agenda = [.host (.regWrite 0x14 0)] ∧
    (loaded []).params.valid = true ∧ (loaded []).status.busy = false := by decide

theorem witness_ReadOnlyWritesIgnored :
    (planned [.host (.regWrite 0x28 5)] (loaded [])).agenda = [.host (.regWrite 0x28 5)] ∧
    0x28 ∈ [0x04, 0x10, 0x20, 0x24, 0x28] := by decide

/-- The first offset past PHASE, one that is no multiple of 4, and the first index past each buffer. -/
theorem witness_OutOfRangeAccessesHarmless :
    (planned [.host (.regWrite 0x2C 5)] (loaded [])).agenda = [.host (.regWrite 0x2C 5)] ∧
    (planned [.host (.regRead 0x01)] (loaded [])).agenda = [.host (.regRead 0x01)] ∧
    (0x01 % 4 ≠ 0 ∧ 0x2C ≤ 0x2C) ∧
    (planned [.host (.srcWrite 16 5)] (loaded [])).agenda = [.host (.srcWrite 16 5)] ∧
    (loaded []).params.srcCap ≤ 16 ∧ (loaded []).params.dstCap ≤ 32 := by decide

theorem witness_BusyWritesIgnored :
    (planned [.host (.srcWrite 0 1)] writing).status.busy = true ∧
    (planned [.host (.srcWrite 0 1)] writing).agenda = [.host (.srcWrite 0 1)] ∧
    (planned [.host (.regWrite 0x00 1)] writing).agenda = [.host (.regWrite 0x00 1)] := by decide

/-- The last index of SRC, and the first past it. -/
theorem witness_SrcWriteStoresByte :
    (planned [.host (.srcWrite 15 1)] (loaded [])).agenda = [.host (.srcWrite 15 1)] ∧
    (loaded []).status.busy = false ∧ 15 < (loaded []).params.srcCap ∧ (loaded []).params.srcCap ≤ 16 := by decide

/-- A written and an unwritten byte of SRC and of DST, and the first index past each; DST while BUSY is 1. -/
theorem witness_BufferReads :
    ((loaded [1]).src.byteAt 0 = some 1 ∧ (loaded [1]).src.byteAt 15 = none ∧ (loaded [1]).params.srcCap ≤ 16) ∧
    (finished.dst.byteAt 0 = some 7 ∧ finished.dst.byteAt 31 = none ∧ finished.params.dstCap ≤ 32 ∧
      finished.status.busy = false ∧ writing.status.busy = true) := by decide

theorem witness_OperandIsSrcBytes :
    { loaded [1] with srcLen := 2 }.src.byteAt 0 = some 1 ∧ { loaded [1] with srcLen := 2 }.src.byteAt 1 = none ∧
    1 < { loaded [1] with srcLen := 2 }.srcLen.toNat := by decide

theorem witness_ResultDependsOnInputsOnly :
    let s := ready .encodeFrame [1]
    let u := { s with src := s.src.put 5 9, dst := [(0, 3)], xerr := 4, cfgAttempts := 9 }
    u.srcLen = s.srcLen ∧ u.dstLimit = s.dstLimit ∧ u.draws = s.draws ∧ u.src.byteAt 0 = s.src.byteAt 0 ∧
      s.srcLen.toNat = 1 ∧ u ≠ s := by decide

/-- An EXCHANGE about to be started twice, with the same inputs: the second state holds other bytes beyond SRC_LEN and in DST,
another DST_LIMIT, ACC and LAST_ERR, and stands at a later time. -/
theorem witness_ResultDependsOnInputsOnly_exchange :
    let rest := [Turn.own, .transport (.writeDone 5 none), .transport (.readDone (.chunk [4, 7, 7, 7, 0])), .own]
    let s := { planned (.host (.regWrite 0x00 (encode .exchange)) :: rest) (loaded [4, 1, 1, 1, 0]) with cfgReadTimeout := 9 }
    let u := { s with
      src := s.src.put 5 9, dst := [(0, 3)], dstLimit := 1, acc := [7], lastErr := .eNoData, now := 6, txlog := [1] }
    s.agenda = .host (.regWrite 0x00 (encode .exchange)) :: rest ∧ u.agenda = s.agenda ∧
      (∀ t ∈ rest, t.environment = true) ∧ s.status.busy = false ∧ u.status.busy = false ∧ u.params = s.params ∧
      u.srcLen = s.srcLen ∧ u.cfgAttempts = s.cfgAttempts ∧ u.cfgRetryDelay = s.cfgRetryDelay ∧
      u.cfgReadTimeout = s.cfgReadTimeout ∧ u.draws = s.draws ∧ s.srcLen.toNat = 5 ∧
      (∀ j ∈ [0, 1, 2, 3, 4], u.src.byteAt j = s.src.byteAt j) ∧ u.dst ≠ s.dst := by decide

/-! The codec, the checksum and the frame. -/

theorem witness_codec_laws :
    ([1] : List Byte) ≠ [] ∧ (cobsEncode [1, 0]).length ≤ 3 ∧ ([1, 0] : List Byte).length + 1 ≤ 3 ∧
    ([2, 5] : List Byte).length ≤ 2 := by decide

theorem witness_UnstuffingBound : cobsDecode [2, 5] 2 = .ok [5] := rfl

theorem witness_FrameLengthFits :
    small.valid = true ∧ (List.replicate 16 (1 : Byte)).length ≤ small.srcCap := by decide

theorem witness_PayloadBound : frameDecode [4, 7, 7, 7] = .ok [7] := rfl

/-- A data byte of the frame of [01] changed, and the payload byte 0xFF changed to 0x00. -/
theorem witness_TamperedDataByteDetected :
    (1 < (frameEncode [1]).length ∧ codeByteAt (frameEncode [1]).length (frameEncode [1]) 1 = false ∧
      (0x02 : Byte) ≠ (frameEncode [1]).getD 1 0 ∧ ¬((frameEncode [1]).getD 1 0 = 0xFF ∧ (0x02 : Byte) = 0x00)) ∧
    (1 < (frameEncode [0xFF]).length ∧ codeByteAt (frameEncode [0xFF]).length (frameEncode [0xFF]) 1 = false ∧
      (0x00 : Byte) ≠ (frameEncode [0xFF]).getD 1 0 ∧ (frameEncode [0xFF]).getD 1 0 = 0xFF) := by decide

/-! The steps of an exchange. -/

theorem witness_WriteAnswered :
    (planned [.transport (.writeDone 5 (some 1))] writing).agenda = [.transport (.writeDone 5 (some 1))] ∧
    writing.phase = .write ∧ writing.wr = some [4, 1, 1, 1, 0] ∧ writing.params.xerr[1]? = some 0xE2 ∧
    (4 ≠ writing.reqLen.toNat ∧ 5 = writing.reqLen.toNat) := by decide

/-- A chunk of P_RD_CHUNK bytes, and the last known error. -/
theorem witness_ReadAnswered :
    (planned [.transport (.readDone (.chunk []))] (reading 1 .pending)).agenda =
      [.transport (.readDone (.chunk []))] ∧
    (reading 1 .pending).phase = .read ∧ (reading 1 .pending).rd = .pending ∧
    ([1, 2, 3, 4, 5, 0] : List Byte).length ≤ (reading 1 .pending).params.rdChunk ∧
    1 < (reading 1 .pending).params.xerr.length := by decide

/-- ACC empty and not, and chunks that overflow ACC (capacity 4), that end short of a sentinel, and that hold one. -/
theorem witness_ObserveEffect :
    (planned [.core .observe] (reading 1 (.completed (.rdErr 1)))).agenda = [.core .observe] ∧
    (reading 1 (.completed (.rdErr 1))).phase = .read ∧
    (reading 1 (.completed (.rdErr 1))).rd = .completed (.rdErr 1) ∧
    (reading 1 (.completed (.chunk []))).acc = [] ∧ { reading 1 (.completed (.chunk [])) with acc := [4] }.acc ≠ [] ∧
    4 < ([4, 7, 7, 7, 7] : List Byte).length ∧
    ([4, 7, 7, 7, 7] : List Byte).takeWhile (fun b => b != 0) = [4, 7, 7, 7, 7] ∧
    ([4, 7, 7, 7] : List Byte).takeWhile (fun b => b != 0) = [4, 7, 7, 7] ∧
    ([4, 7, 7, 7, 0] : List Byte).takeWhile (fun b => b != 0) ≠ [4, 7, 7, 7, 0] ∧ small.rxCap = 4 := by decide

theorem witness_ObserveEffect_decodes :
    frameDecode ([] ++ [4, 7, 7, 7]) = .ok [7] ∧ frameDecode ([] ++ [4, 7, 7, 8]) = .error .eChecksumMismatch :=
  ⟨rfl, rfl⟩

/-- At the deadline and one tick before it. -/
theorem witness_TimeoutEffect :
    (planned [.core .timeout] (reading 1 .pending)).agenda = [.core .timeout] ∧
    (reading 1 .pending).phase = .read ∧ (reading 1 .pending).latchT.toNat ≤ 10 - (reading 1 .pending).tArm ∧
    9 - (reading 1 .pending).tArm < (reading 1 .pending).latchT.toNat := by decide

theorem witness_AttemptFailureUsesBudget :
    ErrCode.eTimeout ≠ .eNone ∧ ErrCode.eTimeout.keepsDst = false ∧
    (reading 1 .none).attemptIdx = (reading 1 .none).latchN ∧
    (reading 2 .none).attemptIdx ≠ (reading 2 .none).latchN := by decide

theorem witness_DeadlineRaceBothOrders :
    (planned [.core .observe] { reading 1 (.completed (.chunk [4])) with now := 10 }).agenda = [.core .observe] ∧
    (planned [.core .timeout] { reading 1 (.completed (.chunk [4])) with now := 10 }).agenda = [.core .timeout] ∧
    { reading 1 (.completed (.chunk [4])) with now := 10 }.phase = .read ∧
    { reading 1 (.completed (.chunk [4])) with now := 10 }.rd = .completed (.chunk [4]) ∧
    { reading 1 (.completed (.chunk [4])) with now := 10 }.latchT.toNat ≤ 10 - (reading 1 .none).tArm ∧
    (observe (.chunk [4]) { reading 1 (.completed (.chunk [4])) with now := 10 }).phase = .read := by decide

theorem witness_DelayLeftOnlyWhenOver :
    delaying.phase = .delay ∧ delaying.status.busy = true ∧
    (nextOf (step (planned [.host .reset] delaying))).map (fun t => t.phase) = some .idle ∧
    (nextOf (step (planned [.core .delayEnd] { delaying with now := 5 }))).map (fun t => t.phase) = some .write := by
  decide

theorem witness_TimeoutNotEarly :
    (nextOf (step (planned [.core .timeout] { reading 2 .pending with now := 10 }))).map
      (fun t => (t.phase, t.lastErr)) = some (.delay, .eTimeout) ∧
    (nextOf (step (planned [.core .timeout] { reading 1 .pending with now := 10 }))).map
      (fun t => (t.phase, t.status.errcode)) = some (.idle, .eTimeout) := by decide

theorem witness_WriteWaitsForTransport :
    writing.phase = .write ∧ writing.status.busy = true ∧ writing.agenda = [] ∧
    (nextOf (step writing)).map (fun t => t.now) = some 1 := by decide

theorem witness_UnansweredReadTimesOut :
    (reading 1 .pending).phase = .read ∧ (reading 1 .pending).rd = .pending ∧ (reading 1 .pending).agenda = [] ∧
    (reading 1 .pending).tArm ≤ (reading 1 .pending).now := by decide

/-- The response to payload [07] in the chunks 04 07, 07 and 07 00 09. -/
theorem witness_ExchangeDeliversPayload :
    writing.phase = .write ∧ writing.wr = some [4, 1, 1, 1, 0] ∧ 5 = writing.reqLen.toNat ∧ writing.acc = [] ∧
    (frameEncode [7]).length ≤ writing.params.rxCap ∧ writing.params.rxCap ≤ 2 ^ 32 - 1 ∧
    (∀ c ∈ ([[4, 7], [7]] : List (List Byte)), c ≠ [] ∧ c.length ≤ writing.params.rdChunk) ∧
    ([7, 0, 9] : List Byte).length ≤ writing.params.rdChunk ∧
    ([[4, 7], [7]] : List (List Byte)).flatten ++ [7, 0, 9] = frameEncode [7] ++ 0 :: [9] ∧
    ([[4, 7], [7]] : List (List Byte)).flatten.length ≤ (frameEncode [7]).length ∧
    (planned [.transport (.writeDone 5 none), .transport (.readDone (.chunk [4, 7])), .core .observe,
      .transport (.readDone (.chunk [7])), .core .observe, .transport (.readDone (.chunk [7, 0, 9])), .core .observe]
      writing).agenda =
      .transport (.writeDone 5 none) ::
        ((([[4, 7], [7]] ++ [[7, 0, 9]] : List (List Byte))).map
          (fun c => [Turn.transport (.readDone (.chunk c)), Turn.core .observe])).flatten := by decide

theorem witness_FailingWritesUseWholeBudget :
    let s := { ready .exchange [4, 1, 1, 1, 0] with cfgAttempts := 2, cfgRetryDelay := 1 }
    s.phase = .exec ∧ s.cmd = encode .exchange ∧ s.attemptIdx = 0 ∧ s.cfgAttempts ≠ 0 ∧
    (operand s).getLast? = some 0 ∧ 2 ≤ s.srcLen.toNat ∧ s.params.xerr[1]? = some 0xE2 ∧
    (planned [.core .exec, .transport (.writeDone 2 (some 1)), .tick, .core .delayEnd,
      .transport (.writeDone 2 (some 1)), .tick, .core .delayEnd] s).agenda =
      .core .exec :: (List.replicate s.cfgAttempts.toNat
        (Turn.transport (.writeDone 2 (some 1)) ::
          (List.replicate s.cfgRetryDelay.toNat Turn.tick ++ [Turn.core .delayEnd]))).flatten := by decide

theorem witness_TransportErrorWordsDistinct :
    small.valid = true ∧ 0 < small.xerr.length ∧ 1 < small.xerr.length := by decide

/-! The whole machine. -/

/-- The state of `witness_inv_reading`: an answer and the deadline race, and no turn is planned. -/
def racing : State := { reading 2 (.completed (.chunk [4, 7, 7, 7, 0, 0x55])) with now := 10 }

/-- A step from a state that meets the invariant and whose completion record is possible: of StepKeepsInvariant,
CompletionCodesPossible, OneRequestAtATime, WriteRequestsAreAttempts, EnvironmentOnlyGrows and OnlyHostChangesSrc. -/
theorem witness_every_step :
    racing.Inv ∧ racing.codeOk ∧ (∃ t, step racing = .next t) ∧ racing.agenda = [] := by
  refine ⟨witness_inv_reading, fun h => absurd h (by decide), ?_, rfl⟩
  simp only [racing, step, ownMove, reading, ready, acceptCommand, loaded, State.powerOn]
  by_cases h : Config.freeBool 0 = true <;> simp [coreEnabled, coreEffect, drawBool, deadlineFired, h]

/-- The same in the retry delay, and after a completion with a code of its own command. -/
theorem witness_delay_step : delaying.Inv ∧ delaying.phase = .delay ∧ (∃ t, step delaying = .next t) :=
  ⟨witness_inv_delaying, rfl, ⟨_, rfl⟩⟩

theorem witness_finished_code : finished.Inv ∧ finished.codeOk ∧ finished.status.done = true :=
  ⟨witness_inv_finished, fun _ => by decide, rfl⟩

theorem witness_ResultStaysUntilNextCommand :
    finished.Inv ∧ finished.phase = .idle ∧ finished.agenda = [] ∧ (∃ t, step finished = .next t) :=
  ⟨witness_inv_finished, rfl, rfl, ⟨_, rfl⟩⟩

theorem witness_PollRepeatsWhileBusy :
    (planned [.poll] finished).agenda = [.poll] ∧ finished.status.busy = false ∧ writing.status.busy = true := by decide

/-- The host's turns for payload [07]. -/
theorem witness_FrameRoundTripThroughBuffers :
    let s := planned ([wrTurn .cmd (encode .encodeFrame), .core .exec] ++ wsrcTurns 0 (frameEncode [7]) ++
      [wrTurn .srcLen (BitVec.ofNat 32 (frameEncode [7]).length), wrTurn .cmd (encode .decodeFrame), .core .exec])
      (loaded [7])
    s.Inv ∧ s.phase = .idle ∧ s.srcLen.toNat = ([7] : List Byte).length ∧
      (∀ i, i < ([7] : List Byte).length → s.src.byteAt i = ([7] : List Byte)[i]?) ∧
      (frameEncode [7]).length ≤ s.params.srcCap := by
  refine ⟨⟨⟨?_, ?_, ?_, ?_, ?_, ?_, ?_, ?_, ?_⟩, ⟨?_, ?_, ?_, ?_, ?_, ?_, ?_⟩, ⟨?_, ?_, ?_, ?_, ?_, ?_, ?_, ?_⟩,
    ⟨?_, ?_, ?_, ?_, ?_, ?_, ?_⟩⟩, by decide, by decide, by decide, by decide⟩ <;>
    simp [planned, loaded, State.powerOn, Memory.putAll, Memory.put, Memory.below, State.inExchange, small, Params.valid]

end Sys2Proof.Tests
end

section
/-! PROOFS. What the invariant needs of the codec and of the decoder. -/

namespace Sys2Proof.Machine

/-! ### How long results are, and which errors the codec has -/

theorem stuff_length_le (run vs : List Byte) (h : run.length ≤ 253) :
    (stuff run vs).length ≤ encodedCapacity (run.length + vs.length) := by
  refine stuff_induct (P := fun run vs => (stuff run vs).length ≤ encodedCapacity (run.length + vs.length))
    ?_ ?_ ?_ ?_ run vs h
  · intro run _
    simp only [stuff_nil, block_length, encodedCapacity, List.length_nil]; omega
  · intro run vs _ ih
    simp only [stuff_zero, List.length_append, block_length, encodedCapacity, List.length_cons, List.length_nil] at ih ⊢
    omega
  · intro run v vs h hv ih
    simp only [stuff_full vs h hv, List.length_append, block_length, encodedCapacity, List.length_cons,
      List.length_nil] at ih ⊢
    omega
  · intro run v vs h hv ih
    rw [stuff_more vs h hv, List.length_cons, Nat.add_comm vs.length, ← Nat.add_assoc]
    simpa using ih

/-- The upper bound of R124, which the empty sequence meets as well. -/
theorem cobsEncode_length_le (s : List Byte) : (cobsEncode s).length ≤ encodedCapacity s.length := by
  cases s with
  | nil => exact Nat.zero_le _
  | cons v vs => simpa [cobsEncode] using stuff_length_le [] (v :: vs) (Nat.zero_le _)

theorem frameEncode_length_le (p : List Byte) : (frameEncode p).length ≤ encodedCapacity (p.length + 2) := by
  simpa [frameEncode] using cobsEncode_length_le (frameOf p)

/-- The errors of unstuffing (R122). -/
def codecErrors : List ErrCode := [.eDecZeroCode, .eDecSrcTooShort, .eDecDstTooShort]

/-- The errors of decoding a frame (R163). -/
def frameErrors : List ErrCode := codecErrors ++ [.eMsgTooShort, .eChecksumMismatch]

/-- Unstuffing gives bytes within the capacity or one of the codec's errors. -/
theorem unstuff_result (limit fuel : Nat) (rest out : List Byte) (phantom : Bool) (h : out.length ≤ limit) :
    (∃ r, unstuff limit fuel rest out phantom = .ok r ∧ r.length ≤ limit) ∨
    (∃ e ∈ codecErrors, unstuff limit fuel rest out phantom = .error e) := by
  have ended (out : List Byte) (phantom : Bool) (h : out.length ≤ limit) :
      (if phantom then out.dropLast else out).length ≤ limit := by
    split
    · exact Nat.le_trans (by simp) h
    · exact h
  induction fuel generalizing rest out phantom with
  | zero => exact .inl ⟨_, by cases rest <;> rfl, ended out phantom h⟩
  | succ fuel ih =>
    cases rest with
    | nil => exact .inl ⟨_, unstuff_nil .., ended out phantom h⟩
    | cons c rest =>
      rcases unstuff_cases limit fuel c rest out phantom with
        ⟨-, h⟩ | ⟨-, h⟩ | ⟨-, -, h⟩ | ⟨hc, hr, hl, h⟩ | ⟨-, hr, hl, h⟩
      · exact .inr ⟨_, by simp [codecErrors], h⟩
      · exact .inr ⟨_, by simp [codecErrors], h⟩
      · exact .inr ⟨_, by simp [codecErrors], h⟩
      · rw [h]; exact ih _ _ _ (by simp; omega)
      · rw [h]; exact ih _ _ _ (by simp; omega)

theorem cobsDecode_result (s : List Byte) (limit : Nat) :
    (∃ r, cobsDecode s limit = .ok r ∧ r.length ≤ limit) ∨
    (∃ e ∈ codecErrors, cobsDecode s limit = .error e) :=
  unstuff_result limit s.length s [] false (Nat.zero_le _)

/-- Decoding a frame gives a payload no longer than the stuffed bytes, or one of the frame's errors. -/
theorem frameDecode_result (s : List Byte) :
    (∃ r, frameDecode s = .ok r ∧ r.length ≤ s.length) ∨
    (∃ e ∈ frameErrors, frameDecode s = .error e) := by
  unfold frameDecode
  rcases cobsDecode_result s s.length with ⟨f, h, hf⟩ | ⟨e, he, h⟩
  · simp only [h, verifyFrame]
    split
    · exact .inr ⟨_, by simp [frameErrors], rfl⟩
    · split
      · exact .inr ⟨_, by simp [frameErrors], rfl⟩
      · exact .inl ⟨_, rfl, by rw [List.length_take]; omega⟩
  · exact .inr ⟨e, List.mem_append_left _ he, by rw [h]⟩

/-! ### The decoder and the encoder -/

theorem decode_encode (i : Instr) : decode (encode i) = .ok i := by cases i <;> rfl

theorem eq_opcodeOf_of_decodeOpcode {o : Byte} {i : Instr} (h : decodeOpcode o = .ok i) : o = opcodeOf i := by
  unfold decodeOpcode at h
  split at h <;> cases h <;> exact BitVec.eq_of_toNat_eq ‹_›

/-- A word with RSVD = 0 is its OPC zero-extended (R90). -/
theorem eq_opcField_setWidth {w : Word} (h : rsvdField w = 0) : w = (opcField w).setWidth 32 := by
  have hr : w.toNat / 256 % 2 ^ 24 = 0 := by
    simpa [rsvdField, Nat.shiftRight_eq_div_pow] using congrArg BitVec.toNat h
  apply BitVec.eq_of_toNat_eq
  simp [opcField]
  omega

/-- Only a command's own word selects it (R91, R92). -/
theorem eq_encode_of_decode {w : Word} {i : Instr} (h : decode w = .ok i) : w = encode i := by
  unfold decode at h
  split at h
  · rename_i hr
    rw [eq_opcField_setWidth hr, eq_opcodeOf_of_decodeOpcode h, encode]
  · cases h

end Sys2Proof.Machine
end

section
/-! PROOFS. The invariant of the machine: where it holds, and that every step keeps it. -/

namespace Sys2Proof.Machine

/-! ### Idle states -/

/-- In PHASE = IDLE with nothing at the transport, the ranges and the completion record are all there is to keep. -/
theorem State.inv_of_idle {s : State} (hr : s.Ranges) (hc : s.Record) (hp : s.phase = .idle) (hw : s.wr = none)
    (hd : s.rd = .none) (ha : s.acc = []) (hl : s.req.length = s.reqLen.toNat) : s.Inv where
  ranges := hr
  record := hc
  port := by constructor <;> simp [hp, hw, hd, ha, hl]
  attempts := by constructor <;> simp [State.inExchange, hp]

/-- The CORE's values of R46, whatever the environment holds. -/
theorem powerOn_inv {p : Params} (hp : p.valid = true) (now : Nat) (txlog : List Byte) (hist : List PortEvent)
    (agenda : List Turn) (draws : Nat) (reads : List ReadResult) :
    State.Inv { State.powerOn p with
      now := now, txlog := txlog, hist := hist, agenda := agenda, draws := draws, reads := reads } := by
  refine State.inv_of_idle ?_ ?_ rfl rfl rfl rfl rfl
  · constructor
    case params => exact hp
    case dstLimit => exact Nat.mod_le _ _
    all_goals simp [State.powerOn, Memory.below]
  · constructor <;> simp [State.powerOn]

theorem hostReset_inv {s : State} (hp : s.params.valid = true) : (hostReset s).Inv :=
  powerOn_inv hp ..

/-- A completion keeps the invariant: XERR is set for the transport's own errors alone (R233), and after a success
exactly the result's bytes are written (R75). -/
theorem complete_inv {e : ErrCode} {info : Word} {s : State} (hr : s.Ranges) (hl : s.req.length = s.reqLen.toNat)
    (hx : info ≠ 0 ↔ (e = .eWrite ∨ e = .eRead))
    (hres : e = .eNone → ∀ i, i < s.dstLen.toNat → (s.dst.byteAt i).isSome = true) : (complete e info s).Inv := by
  refine State.inv_of_idle ?_ ?_ rfl rfl rfl rfl hl
  · refine { hr with dstWf := dstAfter_wf hr.dstWf e s.dstLen, dstBelow := dstAfter_below hr.dstBelow e s.dstLen,
                     dstLen := ?_ }
    simp only [complete]
    split
    · exact hr.dstLen
    · simp
  · constructor
    case xerr => exact hx
    case errLen => exact fun he => if_neg he
    case result =>
      intro _ (he : e = .eNone) i
      simp only [complete, dstAfter, if_pos he, Memory.byteAt_truncate]
      split <;> simp_all
    all_goals simp [complete, Status.completed]

theorem complete_error_inv {e : ErrCode} {s : State} (hr : s.Ranges) (hl : s.req.length = s.reqLen.toNat)
    (he : e ≠ .eNone ∧ e ≠ .eWrite ∧ e ≠ .eRead) : (complete e 0 s).Inv :=
   complete_inv hr hl (by simp [he]) (fun h => absurd h he.1)

theorem succeed_inv {out : List Byte} {s : State} (hr : s.Ranges) (hl : s.req.length = s.reqLen.toNat)
    (ho : out.length ≤ s.params.dstCap) : (succeed out s).Inv := by
  obtain ⟨-, -, -, ⟨-, -, -, hcap⟩, -⟩ := (valid_iff _).1 hr.params
  have hlen : (BitVec.ofNat 32 out.length).toNat = out.length := by
    rw [BitVec.toNat_ofNat, Nat.mod_eq_of_lt (by omega)]
  refine complete_inv ?_ hl (by simp) fun _ i hi => ?_
  · exact { hr with
      dstWf := Memory.putAll_wf hr.dstWf 0 out
      dstBelow := Memory.putAll_below hr.dstBelow 0 out (by omega)
      dstLen := by rw [hlen]; exact ho }
  · have hi : i < out.length := hlen ▸ hi
    rw [Memory.byteAt_putAll, if_pos (by omega)]
    simp [hi]

/-- The errors of a frame are failures, and none is the transport's own. -/
theorem ne_of_mem_frameErrors {e : ErrCode} (h : e ∈ frameErrors) : e ≠ .eNone ∧ e ≠ .eWrite ∧ e ≠ .eRead :=
  (show ∀ e ∈ frameErrors, e ≠ .eNone ∧ e ≠ .eWrite ∧ e ≠ .eRead by decide) e h

theorem finish_inv {r : Except ErrCode (List Byte)} {s : State} (hr : s.Ranges) (hl : s.req.length = s.reqLen.toNat)
    (h : (∃ out, r = .ok out ∧ out.length ≤ s.params.dstCap) ∨ (∃ e ∈ frameErrors, r = .error e)) :
    (finish r s).Inv := by
  rcases h with ⟨out, rfl, ho⟩ | ⟨e, he, rfl⟩
  · exact succeed_inv hr hl ho
  · exact complete_error_inv hr hl (ne_of_mem_frameErrors he)

/-! ### What the invariant gives in each phase -/

theorem State.Inv.quiet {s : State} (h : s.Inv) (hw : s.phase ≠ .write) (hr : s.phase ≠ .read) :
    s.wr = none ∧ s.rd = .none ∧ s.acc = [] := by
  refine ⟨?_, ?_, h.port.accIdle hr⟩
  · simpa using mt h.port.write.2 hw
  · simpa using mt h.port.read.2 hr

/-- While a command runs, STATUS is what the CMD write left and there is no result yet. -/
theorem State.Inv.running {s : State} (h : s.Inv) (hp : s.phase ≠ .idle) :
    s.status = .accepted ∧ s.xerr = 0 ∧ s.dstLen = 0 := by
  have hb : s.status.busy = true := by simpa using mt h.record.busy.1 hp
  obtain ⟨hcode, hx, hl⟩ := h.record.running hb
  have hdone : s.status.done = false := by simpa [hb] using mt h.record.done
  have herr : s.status.err = false := by simpa [hcode] using h.record.err
  refine ⟨?_, hx, hl⟩
  change Status.mk s.status.busy s.status.done s.status.err s.status.errcode = _
  rw [hb, hdone, herr, hcode, Status.accepted]

/-! ### The states between two requests of an exchange -/

/-- EXCHANGE runs with its request and its configuration latched, and nothing is at the transport: the invariant apart from
what depends on PHASE and on the attempt under way. -/
structure State.Latched (s : State) : Prop where
  ranges : s.Ranges
  running : s.status = .accepted ∧ s.xerr = 0 ∧ s.dstLen = 0
  command : s.cmd = encode .exchange
  latches : s.latchN = s.cfgAttempts ∧ s.latchD = s.cfgRetryDelay ∧ s.latchT = s.cfgReadTimeout ∧
    s.reqLen = s.srcLen ∧ requestOk s.req = true
  reqLen : s.req.length = s.reqLen.toNat
  accZero : (0 : Byte) ∉ s.acc
  accLen : s.acc.length ≤ s.params.rxCap
  quiet : s.wr = none ∧ s.rd = .none

/-- An attempt within the budget has begun (R36, R43). -/
structure State.Attempting (s : State) : Prop where
  latched : s.Latched
  begun : 1 ≤ s.attemptIdx.toNat
  budget : s.attemptIdx.toNat ≤ s.latchN.toNat
  armed : s.tArm ≤ s.now

/-- STATUS, DST_LEN and XERR of a running command make a record in any phase but IDLE. -/
theorem State.record_of_running {s : State} (h : s.status = .accepted ∧ s.xerr = 0 ∧ s.dstLen = 0)
    (hp : s.phase ≠ .idle) : s.Record := by
  obtain ⟨hs, hx, hl⟩ := h
  constructor <;> simp [hs, hx, hl, hp, Status.accepted]

theorem beginAttempt_inv {s : State} (h : s.Latched) (hb : s.attemptIdx.toNat < s.latchN.toNat) :
    (beginAttempt s).Inv := by
  have hidx : (s.attemptIdx + 1).toNat = s.attemptIdx.toNat + 1 := by
    have := s.latchN.isLt
    rw [BitVec.toNat_add_of_lt] <;> simp; omega
  refine ⟨{ h.ranges with }, State.record_of_running h.running (by simp), ?_, ?_⟩
  · constructor <;> simp [h.quiet, h.reqLen]
  · constructor
    case latched => exact fun _ => h.latches
    case budget => exact fun _ => by simp only [beginAttempt_attemptIdx, beginAttempt_latchN, hidx]; omega
    all_goals simp [State.inExchange, h.command]

theorem issueRead_inv {s : State} (h : s.Attempting) : (issueRead s).Inv := by
  refine ⟨{ h.latched.ranges with }, State.record_of_running h.latched.running (by simp), ?_, ?_⟩
  · constructor
    case accZero => exact h.latched.accZero
    all_goals simp [h.latched.quiet, h.latched.reqLen, h.latched.accLen]
  · constructor
    case latched => exact fun _ => h.latched.latches
    all_goals simp [State.inExchange, h.latched.command, h.begun, h.budget, h.armed]

/-- A failed attempt keeps the invariant, whether the command completes or the retry delay starts. -/
theorem attemptFail_inv {e : ErrCode} {info : Word} {s : State} (h : s.Attempting) (he : e ≠ .eNone)
    (hx : info ≠ 0 ↔ (e = .eWrite ∨ e = .eRead)) : (attemptFail e info s).Inv := by
  by_cases hlast : s.attemptIdx = s.latchN
  · rw [attemptFail, if_pos hlast]
    exact complete_inv { h.latched.ranges with } h.latched.reqLen hx (fun h => absurd h he)
  · have hleft : s.attemptIdx.toNat < s.latchN.toNat :=
      Nat.lt_of_le_of_ne h.budget (fun h => hlast (BitVec.eq_of_toNat_eq h))
    rw [attemptFail_retry e info hlast]
    refine ⟨{ h.latched.ranges with }, State.record_of_running h.latched.running (by simp), ?_, ?_⟩
    · constructor <;> simp [h.latched.quiet, h.latched.reqLen]
    · constructor
      case latched => exact fun _ => h.latched.latches
      all_goals simp [State.inExchange, h.latched.command, h.begun, h.budget, h.armed, hleft]

/-- In the phases of an exchange the invariant says that the exchange is latched, once its request is off the transport;
TXLOG and H are free. -/
theorem State.Inv.latched {s : State} (h : s.Inv) (hp : s.inExchange) (txlog : List Byte) (hist : List PortEvent)
    {wr : Option (List Byte)} {rd : ReadReq} (hw : wr = none) (hr : rd = .none) :
    State.Latched { s with txlog := txlog, hist := hist, wr := wr, rd := rd } where
  ranges := { h.ranges with }
  running := h.running (by rcases hp with hp | hp | hp <;> simp [hp])
  command := h.attempts.command hp
  latches := h.attempts.latched hp
  reqLen := h.port.reqLen
  accZero := h.port.accZero
  accLen := h.port.accLen
  quiet := ⟨hw, hr⟩

theorem State.Inv.attempting {s : State} (h : s.Inv) (hp : s.inExchange) (txlog : List Byte) (hist : List PortEvent)
    {wr : Option (List Byte)} {rd : ReadReq} (hw : wr = none) (hr : rd = .none) :
    State.Attempting { s with txlog := txlog, hist := hist, wr := wr, rd := rd } where
  latched := h.latched hp txlog hist hw hr
  begun := (h.attempts.budget hp).1
  budget := (h.attempts.budget hp).2
  armed := h.attempts.armed hp

/-! ### The steps of the transport and of an exchange -/

theorem writeDone_inv {s : State} (h : s.Inv) (hp : s.phase = .write) {r : List Byte} {n : Nat}
    {e : Option TransportError} (ha : writeAnswerOk s.params r n e = true) : (writeDone r n e s).Inv := by
  have hrd : s.rd = .none := by simpa [hp] using mt h.port.read.2
  have ht := h.attempting (.inl hp) (s.txlog ++ r.take n) (s.hist ++ [.writeDone n e]) rfl hrd
  cases e with
  | some err =>
    have hk : errorKnown s.params err = true := by simp_all [writeAnswerOk]
    exact attemptFail_inv ht (by decide) ⟨fun _ => .inl rfl, fun _ => xerrWord_ne_zero h.ranges.params hk⟩
  | none =>
    simp only [writeDone]
    split
    · exact attemptFail_inv ht (by decide) (by simp)
    · exact issueRead_inv ht

theorem readDone_inv {s : State} (h : s.Inv) (hp : s.phase = .read) {r : ReadAnswer}
    (ha : readAnswerOk s.params r = true) : (readDone r s).Inv where
  ranges := { h.ranges with }
  record := { h.record with }
  port := { h.port with
    read := by simp [hp]
    answer := by rintro _ ⟨⟩; exact ha }
  attempts := { h.attempts with }

theorem deliver_inv {s : State} (h : s.Attempting) {m : List Byte} (hm : m.length ≤ s.params.rxCap) :
    (deliver m { s with acc := m }).Inv := by
  obtain ⟨-, -, -, ⟨-, hcap, -⟩, -⟩ := (valid_iff _).1 h.latched.ranges.params
  simp only [deliver]
  rcases frameDecode_result m with ⟨p, hp, hl⟩ | ⟨e, he, hp⟩
  · rw [hp]
    exact succeed_inv { h.latched.ranges with } h.latched.reqLen (hl.trans (hm.trans hcap))
  · simp only [hp, attemptFail_acc]
    have hc := ne_of_mem_frameErrors he
    exact attemptFail_inv h hc.1 (by simp [hc])

theorem takeChunk_inv {s : State} (h : s.Attempting) (bs : List Byte) : (takeChunk bs s).Inv := by
  cases bs with
  | nil =>
    simp only [takeChunk]
    split
    · exact attemptFail_inv h (by decide) (by simp)
    · exact issueRead_inv h
  | cons b bs =>
    simp only [takeChunk]
    split
    · rename_i m hm
      exact deliver_inv h ((scan_message hm).2 h.latched.accLen)
    · exact attemptFail_inv h (by decide) (by simp)
    · rename_i acc hacc
      obtain ⟨rfl, hz, hl⟩ := scan_more hacc
      exact issueRead_inv { h with
        latched := { h.latched with
          ranges := { h.latched.ranges with }
          accZero := fun hm => (List.mem_append.1 hm).elim h.latched.accZero hz
          accLen := hl h.latched.accLen } }

theorem observe_inv {s : State} (h : s.Inv) (hp : s.phase = .read) {r : ReadAnswer} (hr : s.rd = .completed r) :
    (observe r s).Inv := by
  have hw : s.wr = none := by simpa [hp] using mt h.port.write.2
  have ht := h.attempting (.inr (.inl hp)) s.txlog s.hist hw (rd := .none) rfl
  cases r with
  | rdErr e =>
    have hk : errorKnown s.params e = true := h.port.answer _ hr
    exact attemptFail_inv ht (by decide) ⟨fun _ => .inr rfl, fun _ => xerrWord_ne_zero h.ranges.params hk⟩
  | chunk bs => exact takeChunk_inv ht bs

theorem timeout_inv {s : State} (h : s.Inv) (hp : s.phase = .read) : (timeout s).Inv := by
  have hw : s.wr = none := by simpa [hp] using mt h.port.write.2
  exact attemptFail_inv (h.attempting (.inr (.inl hp)) s.txlog (s.hist ++ cancelEvents s.rd) hw rfl)
    (by decide) (by simp)

theorem delayEnd_inv {s : State} (h : s.Inv) (hp : s.phase = .delay) : (beginAttempt s).Inv := by
  obtain ⟨hw, hr, -⟩ := h.quiet (by simp [hp]) (by simp [hp])
  exact beginAttempt_inv (h.latched (.inr (.inr hp)) s.txlog s.hist hw hr) (h.attempts.budgetLeft hp)

theorem tick_inv {s : State} (h : s.Inv) : (tick s).Inv where
  ranges := { h.ranges with }
  record := { h.record with }
  port := { h.port with }
  attempts := { h.attempts with
    armed := fun hp => Nat.le_succ_of_le (h.attempts.armed hp)
    failed := fun hp => Nat.le_succ_of_le (h.attempts.failed hp) }

/-! ### The commands -/

/-- X_START (R181 to R183): the request and the configuration are latched, then the first attempt begins. -/
theorem execExchange_inv {s t : State} (h : s.Inv) (hp : s.phase = .exec) (hc : s.cmd = encode .exchange)
    (ht : execExchange s = .next t) : t.Inv := by
  obtain ⟨hw, hr, ha⟩ := h.quiet (by simp [hp]) (by simp [hp])
  have hl : (latchRequest s).req.length = (latchRequest s).reqLen.toNat := operand_length s
  unfold execExchange at ht
  split at ht
  · rename_i hok
    obtain rfl := Host.Outcome.next.inj ht
    have hN : 0 < s.cfgAttempts.toNat :=
      Nat.pos_of_ne_zero (fun h0 => h.ranges.attempts (BitVec.eq_of_toNat_eq (by simpa using h0)))
    refine beginAttempt_inv ?_ (by simpa [h.attempts.notBegun hp] using hN)
    exact {
      ranges := { h.ranges with }
      running := h.running (by simp [hp])
      command := hc
      latches := ⟨rfl, rfl, rfl, rfl, hok⟩
      reqLen := hl
      accZero := h.port.accZero
      accLen := h.port.accLen
      quiet := ⟨hw, hr⟩ }
  · obtain rfl := Host.Outcome.next.inj ht
    exact complete_error_inv { h.ranges with } hl (by decide)

/-- Every command keeps the invariant: its result fits DST and its error is not the transport's. -/
theorem exec_inv {i : Instr} {s t : State} (h : s.Inv) (hp : s.phase = .exec) (hd : decode s.cmd = .ok i)
    (ht : exec i s = .next t) : t.Inv := by
  have hr : (afterOperand s).Ranges := { h.ranges with }
  have hl : (afterOperand s).req.length = (afterOperand s).reqLen.toNat := h.port.reqLen
  have hn : (operand s).length ≤ s.params.srcCap := by simpa using h.ranges.srcLen
  obtain ⟨-, -, -, ⟨hcap, -, htwo, -⟩, -⟩ := (valid_iff _).1 h.ranges.params
  cases i with
  | encode =>
    simp only [exec, execEncode] at ht
    split at ht
    · obtain rfl := Host.Outcome.next.inj ht
      exact succeed_inv hr hl (Nat.zero_le _)
    · split at ht <;> obtain rfl := Host.Outcome.next.inj ht
      · exact complete_error_inv hr hl (by decide)
      · have hlen := cobsEncode_length_le (operand s)
        have hlim := h.ranges.dstLimit
        rw [operand_length] at hlen
        exact succeed_inv hr hl (by rw [afterOperand_params]; omega)
  | decode =>
    obtain rfl := Host.Outcome.next.inj ht
    refine finish_inv hr hl ?_
    rcases cobsDecode_result (operand s) s.dstLimit.toNat with ⟨out, ho, hout⟩ | ⟨e, he, ho⟩
    · exact .inl ⟨out, ho, hout.trans h.ranges.dstLimit⟩
    · exact .inr ⟨e, List.mem_append_left _ he, ho⟩
  | checksum =>
    obtain rfl := Host.Outcome.next.inj ht
    exact succeed_inv hr hl htwo
  | encodeFrame =>
    obtain rfl := Host.Outcome.next.inj ht
    have hlen := frameEncode_length_le (operand s)
    unfold encodedCapacity at hlen
    exact succeed_inv hr hl (by rw [afterOperand_params]; omega)
  | decodeFrame =>
    obtain rfl := Host.Outcome.next.inj ht
    refine finish_inv hr hl ((frameDecode_result (operand s)).imp_left ?_)
    rintro ⟨out, ho, hout⟩
    exact ⟨out, ho, by rw [afterOperand_params]; omega⟩
  | exchange => exact execExchange_inv h hp (eq_encode_of_decode hd) ht

/-! ### Every step -/

theorem Move.inv {s t : State} (m : Move s t) (h : s.Inv) : t.Inv := by
  cases m with
  | illegal e hp hd => exact complete_error_inv h.ranges h.port.reqLen (by decide)
  | command i t hp hd ht => exact exec_inv h hp hd ht
  | observe r hp hr => exact observe_inv h hp hr
  | timeout hp hd => exact timeout_inv h hp
  | delayEnd hp hd => exact delayEnd_inv h hp
  | writeDone r n e hp hw ha => exact writeDone_inv h hp ha
  | readDone r hp hr ha => exact readDone_inv h hp ha
  | tick => exact tick_inv h
  | plan a rs => exact h.replan a s.draws (s.reads ++ rs)

/-- An accepted CMD write (R25) starts a command from an idle state. -/
theorem acceptCommand_inv {s : State} (h : s.Inv) (hb : s.status.busy = false) (w : Word) :
    (acceptCommand w s).Inv := by
  have hp := h.record.busy.1 hb
  obtain ⟨hw, hr, ha⟩ := h.quiet (by simp [hp]) (by simp [hp])
  refine ⟨{ h.ranges with dstLen := Nat.zero_le _ }, State.record_of_running ⟨rfl, rfl, rfl⟩ (by simp), ?_, ?_⟩
  · constructor <;> simp [hw, hr, ha, h.port.reqLen]
  · constructor <;> simp [State.inExchange]

/-- While idle, a register or SRC may take any value of its range. -/
theorem State.Inv.of_idle_ranges {s t : State} (h : s.Inv) (hb : s.status.busy = false) (hr : t.Ranges)
    (hc : t.Record) (hport : (t.phase, t.wr, t.rd, t.acc, t.req, t.reqLen) =
      (s.phase, s.wr, s.rd, s.acc, s.req, s.reqLen)) : t.Inv := by
  have hp := h.record.busy.1 hb
  obtain ⟨hw, hd, ha⟩ := h.quiet (by simp [hp]) (by simp [hp])
  simp only [Prod.mk.injEq] at hport
  obtain ⟨ep, ew, ed, ea, eq, el⟩ := hport
  exact State.inv_of_idle hr hc (ep.trans hp) (ew.trans hw) (ed.trans hd) (ea.trans ha) (eq ▸ el ▸ h.port.reqLen)

theorem clampTo_le {cap : Nat} (v : Word) (h : cap ≤ 2 ^ 32 - 1) : (clampTo cap v).toNat ≤ cap :=
  clampTo_toNat v h ▸ Nat.min_le_right ..

theorem atLeastOne_ne_zero (v : Word) : atLeastOne v ≠ 0 := by
  unfold atLeastOne
  split
  · decide
  · assumption

theorem HostMove.inv {s t : State} {x : HostStep} (m : HostMove s x t) (h : s.Inv) : t.Inv := by
  obtain ⟨⟨-, hsrc⟩, -, -, ⟨-, -, -, hdst⟩, -⟩ := (valid_iff _).1 h.ranges.params
  cases m with
  | read _ d r hd => exact h.replan s.agenda d (s.reads ++ [r])
  | ignored => exact h
  | command w hb => exact acceptCommand_inv h hb w
  | srcLen v hb =>
    exact h.of_idle_ranges hb { h.ranges with srcLen := clampTo_le v hsrc } { h.record with } rfl
  | dstLimit v hb =>
    exact h.of_idle_ranges hb { h.ranges with dstLimit := clampTo_le v hdst } { h.record with } rfl
  | attempts v hb =>
    exact h.of_idle_ranges hb { h.ranges with attempts := atLeastOne_ne_zero v } { h.record with } rfl
  | retryDelay v hb => exact h.of_idle_ranges hb { h.ranges with } { h.record with } rfl
  | readTimeout v hb => exact h.of_idle_ranges hb { h.ranges with } { h.record with } rfl
  | srcByte i b hb hi =>
    exact h.of_idle_ranges hb { h.ranges with
      srcWf := Memory.put_wf h.ranges.srcWf i b
      srcBelow := Memory.put_below h.ranges.srcBelow hi b } { h.record with } rfl
  | reset => exact hostReset_inv h.ranges.params

/-- Settles O53: the host's steps and the moves of the other agents each keep the invariant. -/
theorem stepKeepsInvariant : Obligations.StepKeepsInvariant := by
  intro s t h hst
  rcases step_move s with ⟨x, rest, -, hx⟩ | ⟨a, d, u, -, hu, m⟩
  · obtain rfl := Host.Outcome.next.inj (hx.symm.trans hst)
    exact (hostStep_move x _).inv (h.replan rest s.draws s.reads)
  · obtain rfl := Host.Outcome.next.inj (hu.symm.trans hst)
    exact m.inv (h.replan a d s.reads)

/-- Settles O3: power-on with legal parameters is an idle state without a completion record. -/
theorem invariantAtReset : Obligations.InvariantAtReset :=
  ⟨powerOn_inv params_valid .., fun h => by cases h⟩

end Sys2Proof.Machine
end


section
/-! PROOFS. What every step leaves of the environment: the clock only ticks, the records only grow. -/

namespace Sys2Proof.Machine

/-- `t` follows `s` with no tick between: the records of `s` are still there, at the front of those of `t` (R23, R44). -/
structure State.Extends (s t : State) : Prop where
  now : t.now = s.now
  txlog : s.txlog <+: t.txlog
  hist : s.hist <+: t.hist
  reads : s.reads <+: t.reads
  draws : s.draws ≤ t.draws
  params : t.params = s.params

namespace State.Extends

theorem refl (s : State) : s.Extends s :=
  ⟨rfl, List.prefix_rfl, List.prefix_rfl, List.prefix_rfl, Nat.le_refl _, rfl⟩

theorem trans {s t u : State} (h : s.Extends t) (h' : t.Extends u) : s.Extends u :=
  ⟨h'.now.trans h.now, h.txlog.trans h'.txlog, h.hist.trans h'.hist, h.reads.trans h'.reads,
    h.draws.trans h'.draws, h'.params.trans h.params⟩

/-- A completion changes registers and buffers of the CORE alone (R235). -/
theorem complete (e : ErrCode) (info : Word) (s : State) : s.Extends (complete e info s) := { refl s with }

theorem succeed (out : List Byte) (s : State) : s.Extends (succeed out s) := { refl s with }

theorem finish (r : Except ErrCode (List Byte)) (s : State) : s.Extends (finish r s) := by
  cases r with
  | ok out => exact succeed out s
  | error e => exact complete e 0 s

theorem afterOperand (s : State) : s.Extends (afterOperand s) :=
  { refl s with draws := readBytes_draws_le .. }

theorem latchRequest (s : State) : s.Extends (latchRequest s) := { afterOperand s with }

theorem beginAttempt (s : State) : s.Extends (beginAttempt s) := { refl s with hist := List.prefix_append .. }

theorem issueRead (s : State) : s.Extends (issueRead s) := { refl s with hist := List.prefix_append .. }

theorem attemptFail (e : ErrCode) (info : Word) (s : State) : s.Extends (attemptFail e info s) := by
  unfold Machine.attemptFail
  split
  · exact { refl s with }
  · exact { refl s with }

theorem writeDone (r : List Byte) (n : Nat) (e : Option TransportError) (s : State) :
    s.Extends (writeDone r n e s) := by
  have ht : s.Extends { s with txlog := s.txlog ++ r.take n, hist := s.hist ++ [.writeDone n e], wr := none } :=
    { refl s with txlog := List.prefix_append .., hist := List.prefix_append .. }
  refine ht.trans ?_
  unfold Machine.writeDone
  split
  · exact attemptFail ..
  · split
    · exact attemptFail ..
    · exact issueRead _

theorem readDone (r : ReadAnswer) (s : State) : s.Extends (readDone r s) :=
  { refl s with hist := List.prefix_append .. }

theorem deliver (m : List Byte) (s : State) : s.Extends (deliver m s) := by
  unfold Machine.deliver
  split
  · exact attemptFail ..
  · exact succeed ..

theorem takeChunk (bs : List Byte) (s : State) : s.Extends (takeChunk bs s) := by
  have acc (m : List Byte) : s.Extends { s with acc := m } := { refl s with }
  unfold Machine.takeChunk
  split
  · split
    · exact attemptFail ..
    · exact issueRead s
  · split
    · exact (acc _).trans (deliver ..)
    · exact attemptFail ..
    · exact (acc _).trans (issueRead _)

theorem observe (r : ReadAnswer) (s : State) : s.Extends (observe r s) := by
  have ht : s.Extends { s with rd := .none } := { refl s with }
  cases r with
  | rdErr e => exact ht.trans (attemptFail ..)
  | chunk bs => exact ht.trans (takeChunk ..)

theorem timeout (s : State) : s.Extends (timeout s) :=
  trans (t := { s with rd := .none, hist := s.hist ++ cancelEvents s.rd })
    { refl s with hist := List.prefix_append .. } (attemptFail ..)

theorem exec {i : Instr} {s t : State} (h : exec i s = .next t) : s.Extends t := by
  cases i with
  | encode =>
    simp only [Machine.exec, execEncode] at h
    split at h
    · exact Host.Outcome.next.inj h ▸ (afterOperand s).trans (succeed ..)
    · split at h
      · exact Host.Outcome.next.inj h ▸ (afterOperand s).trans (complete ..)
      · exact Host.Outcome.next.inj h ▸ (afterOperand s).trans (succeed ..)
  | decode => exact Host.Outcome.next.inj h ▸ (afterOperand s).trans (finish ..)
  | checksum => exact Host.Outcome.next.inj h ▸ (afterOperand s).trans (succeed ..)
  | encodeFrame => exact Host.Outcome.next.inj h ▸ (afterOperand s).trans (succeed ..)
  | decodeFrame => exact Host.Outcome.next.inj h ▸ (afterOperand s).trans (finish ..)
  | exchange =>
    simp only [Machine.exec, execExchange] at h
    split at h
    · have hc : s.Extends (latchConfig (Machine.latchRequest s)) := { latchRequest s with }
      exact Host.Outcome.next.inj h ▸ hc.trans (beginAttempt _)
    · exact Host.Outcome.next.inj h ▸ (latchRequest s).trans (complete ..)

theorem hostReset (s : State) : s.Extends (hostReset s) where
  now := rfl
  txlog := List.prefix_append ..
  hist := by simp [abandonTransport, List.append_assoc]
  reads := List.prefix_rfl
  draws := by
    simp only [hostReset_draws, abandonTransport]
    split
    · exact Nat.le_succ _
    · exact Nat.le_refl _
  params := rfl

end State.Extends

theorem HostMove.extends {s t : State} {x : HostStep} (m : HostMove s x t) : s.Extends t := by
  cases m with
  | read _ d r hd => exact { State.Extends.refl s with reads := List.prefix_append .., draws := hd }
  | reset => exact .hostReset s
  | _ => exact { State.Extends.refl s with }

/-- Every move but TICK keeps the clock. -/
theorem Move.extends_or_tick {s t : State} (m : Move s t) : s.Extends t ∨ t = Machine.tick s := by
  cases m with
  | illegal e hp hd => exact .inl (.complete ..)
  | command i t hp hd ht => exact .inl (.exec ht)
  | observe r hp hr => exact .inl (.observe r s)
  | timeout hp hd => exact .inl (.timeout s)
  | delayEnd hp hd => exact .inl (.beginAttempt s)
  | writeDone r n e hp hw ha => exact .inl (.writeDone r n e s)
  | readDone r hp hr ha => exact .inl (.readDone r s)
  | tick => exact .inr rfl
  | plan a rs => exact .inl { State.Extends.refl s with reads := List.prefix_append .. }

/-- A step extends the environment, or is a TICK and leaves all of it but the clock. -/
theorem step_extends_or_tick {s t : State} (h : step s = .next t) :
    s.Extends t ∨ ∃ u, s.Extends u ∧ t = tick u := by
  rcases step_move s with ⟨x, rest, -, hx⟩ | ⟨a, d, u, hd, hu, m⟩
  · obtain rfl := Host.Outcome.next.inj (hx.symm.trans h)
    have hr : s.Extends { s with agenda := rest } := { State.Extends.refl s with }
    exact .inl (hr.trans (hostStep_move x _).extends)
  · obtain rfl := Host.Outcome.next.inj (hu.symm.trans h)
    have hr : s.Extends { s with agenda := a, draws := d } := { State.Extends.refl s with draws := hd }
    exact m.extends_or_tick.imp hr.trans fun ht => ⟨_, hr, ht⟩

/-- Settles O56: every step extends the environment, with a tick of the clock at most. -/
theorem environmentOnlyGrows : Obligations.EnvironmentOnlyGrows := by
  intro s t h
  have grown {u : State} (hu : s.Extends u) : (∃ bs, u.txlog = s.txlog ++ bs) ∧ (∃ es, u.hist = s.hist ++ es) ∧
      (∃ rs, u.reads = s.reads ++ rs) ∧ s.draws ≤ u.draws ∧ u.params = s.params := by
    obtain ⟨-, ⟨bs, hb⟩, ⟨es, he⟩, ⟨rs, hr⟩, hd, hp⟩ := hu
    exact ⟨⟨bs, hb.symm⟩, ⟨es, he.symm⟩, ⟨rs, hr.symm⟩, hd, hp⟩
  rcases step_extends_or_tick h with ht | ⟨u, hu, rfl⟩
  · exact ⟨.inl ht.now, grown ht⟩
  · have hg := grown hu
    exact ⟨.inr (by rw [tick_now, hu.now]), hg⟩

end Sys2Proof.Machine
end


section
/-! PROOFS. What a command reads, and what the host's register and buffer accesses do. -/

namespace Sys2Proof.Machine

/-! ### The operand -/

/-- Byte `j` of an operand: the byte of its index, or the draw numbered by the unwritten indices before it (R40, R63). -/
theorem readBytes_getElem? (m : Memory) {k j : Nat} (d i : Nat) (h : j < k) :
    (readBytes m d i k).1[j]? = some ((m.byteAt (i + j)).getD
      (Config.freeByte (d + ((List.range' i j).filter (fun l => m.byteAt l == none)).length))) := by
  induction k generalizing d i j with
  | zero => omega
  | succ k ih =>
    cases j with
    | zero => simp only [readBytes]; split <;> simp_all
    | succ j =>
      have next : i + (j + 1) = i + 1 + j := by omega
      simp only [readBytes, List.range'_succ, List.filter_cons, next]
      split
      · rename_i b hb
        simp [hb, ih (j := j) d (i + 1) (by omega)]
      · rename_i hb
        simp [hb, ih (j := j) (d + 1) (i + 1) (by omega), Nat.add_assoc, Nat.add_comm 1]

/-- Settles O19: the operand is `readBytes` from index 0. -/
theorem operandIsSrcBytes : Obligations.OperandIsSrcBytes := by
  intro s
  refine ⟨operand_length s, fun i hi => ?_⟩
  have h := readBytes_getElem? s.src s.draws 0 hi
  rw [Nat.zero_add, ← List.range_eq_range'] at h
  exact ⟨fun b hb => by rw [operand, h, hb, Option.getD_some], fun hn => by rw [operand, h, hn, Option.getD_none]⟩

/-! ### Planned turns -/

theorem step_of_agenda {s : State} {x : Turn} {rest : List Turn} (h : s.agenda = x :: rest) :
    step s = takeTurn x { s with agenda := rest } := by
  rw [step, h]

theorem step_host {s : State} {x : HostStep} {rest : List Turn} (h : s.agenda = .host x :: rest) :
    step s = .next (hostStep x { s with agenda := rest }) :=
  step_of_agenda h

/-! ### The EXEC step -/

theorem coreStep_exec {s : State} {i : Instr} (hp : s.phase = .exec) (hd : decode s.cmd = .ok i) :
    coreStep .exec s = exec i s := by
  simp [coreStep, coreEnabled, coreEffect, execCommand, hp, hd]

theorem ownMove_exec {s : State} {i : Instr} (hp : s.phase = .exec) (hd : decode s.cmd = .ok i) :
    ownMove s = exec i s := by
  simp [ownMove, coreEnabled, coreEffect, execCommand, hp, hd]

/-- Settles O7: the EXEC step is enabled, and the block's own move prefers it. -/
theorem stepRunsDecodedCommand : Obligations.StepRunsDecodedCommand := by
  intro s i hp hd
  refine ⟨fun rest ha => ?_, fun rest ha => ?_, fun ha => ?_⟩
  · rw [step_of_agenda ha]; exact coreStep_exec hp hd
  · rw [step_of_agenda ha]; exact ownMove_exec hp hd
  · rw [step, ha]; exact ownMove_exec hp hd

/-- Settles O8: the placed word is accepted as CMD, and it decodes to the command it encodes. -/
theorem placedWordRuns : Obligations.PlacedWordRuns := by
  intro s i
  have hw : BitVec.ofNat 32 (encode i).toNat = encode i := BitVec.ofNat_toNat ..
  have ha : (s.withFetchWord 32 (encode i).toNat).agenda = .core .exec :: s.agenda := rfl
  rw [step_of_agenda ha, State.withFetchWord, hw]
  exact coreStep_exec rfl (decode_encode i)

/-! ### The register map -/

theorem regRead_offset (r : Reg) (s : State) : regRead r.offset s = r.value s := by
  rw [regRead, regAt_offset]

theorem regRead_reserved {off : Nat} (h : off % 4 ≠ 0 ∨ 0x2C ≤ off) (s : State) : regRead off s = 0 := by
  rw [regRead, regAt_reserved h]

theorem regWrite_busy {s : State} (off : Nat) (w : Word) (hb : s.status.busy = true) : regWrite off w s = s :=
  if_pos hb

theorem regWrite_offset {s : State} (r : Reg) (w : Word) (hb : s.status.busy = false) :
    regWrite r.offset w s = r.store w s := by
  simp only [regWrite, hb, regAt_offset, Bool.false_eq_true, if_false]

theorem regWrite_reserved {off : Nat} (h : off % 4 ≠ 0 ∨ 0x2C ≤ off) (w : Word) (s : State) :
    regWrite off w s = s := by
  rw [regWrite, regAt_reserved h, ite_self]

/-- A register that stores nothing ignores a write, whatever BUSY is (R24). -/
theorem regWrite_readOnly {r : Reg} {w : Word} {s : State} (h : r.store w s = s) : regWrite r.offset w s = s := by
  cases hb : s.status.busy with
  | true => exact regWrite_busy _ w hb
  | false => rw [regWrite_offset r w hb, h]

/-- Settles O9: offset 0 is CMD, whose store accepts the command, and BUSY = 1 blocks the write. -/
theorem cmdWriteStartsCommand : Obligations.CmdWriteStartsCommand := by
  intro s rest w ha
  refine ⟨fun hb => ?_, fun hb => ?_, regRead_offset .cmd s⟩ <;> rw [step_host ha]
  · exact congrArg _ (regWrite_offset .cmd w hb)
  · simp only [hostStep, regWrite_busy, hb]

/-- Settles O10: every register is read at its own offset, and no other offset has one. -/
theorem registerReads : Obligations.RegisterReads := by
  intro s rest off ha
  refine ⟨regRead off { s with agenda := rest }, step_host ha, ?_⟩
  have reg (r : Reg) (h : off = r.offset) : regRead off { s with agenda := rest } = r.value s := by
    rw [h, regRead_offset]; cases r <;> rfl
  exact ⟨reg .cmd, reg .status, reg .srcLen, reg .dstLimit, reg .dstLen, reg .cfgAttempts, reg .cfgRetryDelay,
    reg .cfgReadTimeout, reg .attemptIdx, reg .xerr, reg .phase, fun h => regRead_reserved h _⟩

/-- Settles O13: each register's store, with its clamp as a minimum or a maximum. -/
theorem registerWritesClamp : Obligations.RegisterWritesClamp := by
  intro s rest off v ha hv hb
  obtain ⟨⟨-, hsrc⟩, -, -, ⟨-, -, -, hdst⟩, -⟩ := (valid_iff _).1 hv
  have stored (r : Reg) (h : off = r.offset) : step s = .next (r.store v { s with agenda := rest }) := by
    rw [step_host ha, h]
    exact congrArg _ (regWrite_offset r v hb)
  exact ⟨fun h => ⟨clampTo s.params.srcCap v, stored .srcLen h, clampTo_toNat v hsrc⟩,
    fun h => ⟨clampTo s.params.dstCap v, stored .dstLimit h, clampTo_toNat v hdst⟩,
    fun h => ⟨atLeastOne v, stored .cfgAttempts h, atLeastOne_toNat v⟩,
    stored .cfgRetryDelay, stored .cfgReadTimeout⟩

/-- Settles O14: the five registers store nothing. -/
theorem readOnlyWritesIgnored : Obligations.ReadOnlyWritesIgnored := by
  intro s rest off v ha hoff
  have ignored (r : Reg) (h : off = r.offset) (hr : r.store v { s with agenda := rest } = { s with agenda := rest }) :
      step s = .next { s with agenda := rest } := by
    rw [step_host ha, h]
    exact congrArg _ (regWrite_readOnly hr)
  simp only [List.mem_cons, List.not_mem_nil, or_false] at hoff
  rcases hoff with h | h | h | h | h
  · exact ignored .status h rfl
  · exact ignored .dstLen h rfl
  · exact ignored .attemptIdx h rfl
  · exact ignored .xerr h rfl
  · exact ignored .phase h rfl

/-! ### The bits of STATUS and PHASE -/

/-- Settles O11: STATUS is its fields one after another, PHASE its three bits zero-extended. -/
theorem statusAndPhaseBits : Obligations.StatusAndPhaseBits := by
  refine ⟨fun st => ?_, fun p => ?_, rfl, rfl, rfl, rfl, rfl⟩
  · simp only [Status.word, BitVec.getLsbD_append, BitVec.extractLsb'_append_eq_ite]
    simp
  · cases p <;> exact ⟨rfl, rfl⟩

/-! ### The buffers -/

theorem srcRead_of_le {i : Nat} {s : State} (h : s.params.srcCap ≤ i) :
    srcRead i s = returned (.byte 0) s :=
  if_neg (Nat.not_lt.2 h)

theorem srcRead_of_lt {i : Nat} {s : State} (h : i < s.params.srcCap) : srcRead i s = returnByte (s.src.byteAt i) s :=
  if_pos h

theorem srcWrite_of_le {i : Nat} {s : State} (b : Byte) (h : s.params.srcCap ≤ i) : srcWrite i b s = s :=
  if_neg (fun hw => Nat.not_lt.2 h hw.2)

theorem dstRead_of_le {i : Nat} {s : State} (h : s.params.dstCap ≤ i) : dstRead i s = returned (.byte 0) s :=
  if_pos h

theorem dstRead_busy {i : Nat} {s : State} (h : i < s.params.dstCap) (hb : s.status.busy = true) :
    dstRead i s = returnByte none s := by
  rw [dstRead, if_neg (Nat.not_le.2 h), if_pos hb]

theorem dstRead_idle {i : Nat} {s : State} (h : i < s.params.dstCap) (hb : s.status.busy = false) :
    dstRead i s = returnByte (s.dst.byteAt i) s := by
  rw [dstRead, if_neg (Nat.not_le.2 h), if_neg (by simp [hb])]

/-- Settles O15: each access is at a reserved offset or beyond its space's size. -/
theorem outOfRangeAccessesHarmless : Obligations.OutOfRangeAccessesHarmless := by
  intro s rest
  refine ⟨fun off h => ⟨fun ha => ?_, fun v ha => ?_⟩, fun i h => ⟨fun ha => ?_, fun b ha => ?_⟩, fun i h ha => ?_⟩
    <;> rw [step_host ha, hostStep]
  · rw [regRead_reserved h, returned]
  · rw [regWrite_reserved h]
  · simp only [srcRead_of_le, h, returned]
  · simp only [srcWrite_of_le, h]
  · simp only [dstRead_of_le, h, returned]

/-- Settles O18: a read is out of range, of a defined byte, or a draw. -/
theorem bufferReads : Obligations.BufferReads := by
  intro s rest i byte drawn
  refine ⟨fun ha => ⟨fun h => ?_, fun h => ⟨fun b hm => ?_, fun hm => ?_⟩⟩,
    fun ha => ⟨fun h => ?_, fun h => ⟨fun hb => ?_, fun hb => ⟨fun b hm => ?_, fun hm => ?_⟩⟩⟩⟩
    <;> rw [step_host ha, hostStep]
  · simp only [srcRead_of_le, h]; rfl
  · simp only [srcRead_of_lt, h, hm]; rfl
  · simp only [srcRead_of_lt, h, hm]; rfl
  · simp only [dstRead_of_le, h]; rfl
  · simp only [dstRead_busy, h, hb]; rfl
  · simp only [dstRead_idle, h, hb, hm]; rfl
  · simp only [dstRead_idle, h, hb, hm]; rfl

end Sys2Proof.Machine
end

section
/-! PROOFS. Who writes what: which steps change SRC, and which change a finished command's record and result. -/

namespace Sys2Proof.Machine

/-! ### Host writes -/

theorem srcWrite_busy {s : State} (i : Nat) (b : Byte) (hb : s.status.busy = true) : srcWrite i b s = s :=
  if_neg (by simp [hb])

theorem srcWrite_of_lt {i : Nat} {s : State} (b : Byte) (hb : s.status.busy = false) (h : i < s.params.srcCap) :
    srcWrite i b s = { s with src := s.src.put i b } :=
  if_pos ⟨hb, h⟩

/-- Settles O16: BUSY = 1 blocks both kinds of host write. -/
theorem busyWritesIgnored : Obligations.BusyWritesIgnored := by
  intro s rest hb
  refine ⟨fun off v ha => ?_, fun i b ha => ?_⟩ <;> rw [step_host ha, hostStep]
  · exact congrArg _ (regWrite_busy off v hb)
  · exact congrArg _ (srcWrite_busy i b hb)

/-- Settles O17: within SRC the write is a `put`, and `byteAt_put` says what that does to every index. -/
theorem srcWriteStoresByte : Obligations.SrcWriteStoresByte := by
  intro s rest i b ha hb
  refine ⟨fun h => ⟨s.src.put i b, ?_, fun j => Memory.byteAt_put s.src i j b⟩, fun h => ?_⟩
    <;> rw [step_host ha, hostStep]
  · exact congrArg _ (srcWrite_of_lt b hb h)
  · simp only [srcWrite_of_le, h]

/-! ### SRC -/

@[simp] theorem finish_src (r : Except ErrCode (List Byte)) (s : State) : (finish r s).src = s.src := by
  cases r <;> rfl

@[simp] theorem attemptFail_src (e : ErrCode) (info : Word) (s : State) : (attemptFail e info s).src = s.src :=
  (attemptFail_frame e info s).2.2.1

@[simp] theorem writeDone_src (r : List Byte) (n : Nat) (e : Option TransportError) (s : State) :
    (writeDone r n e s).src = s.src := by
  cases e with
  | some err => exact attemptFail_src ..
  | none =>
    simp only [writeDone]
    split
    · exact attemptFail_src ..
    · rfl

@[simp] theorem deliver_src (m : List Byte) (s : State) : (deliver m s).src = s.src := by
  unfold deliver
  split
  · exact attemptFail_src ..
  · rfl

@[simp] theorem takeChunk_src (bs : List Byte) (s : State) : (takeChunk bs s).src = s.src := by
  cases bs with
  | nil =>
    simp only [takeChunk]
    split
    · exact attemptFail_src ..
    · rfl
  | cons b bs =>
    simp only [takeChunk]
    split
    · exact deliver_src ..
    · exact attemptFail_src ..
    · rfl

@[simp] theorem observe_src (r : ReadAnswer) (s : State) : (observe r s).src = s.src := by
  cases r with
  | chunk bs => exact takeChunk_src ..
  | rdErr e => exact attemptFail_src ..

/-- No command writes SRC (R71). -/
theorem exec_src {i : Instr} {s t : State} (h : exec i s = .next t) : t.src = s.src := by
  cases i with
  | encode =>
    simp only [exec, execEncode] at h
    split at h <;> [skip; split at h] <;> cases h <;> rfl
  | exchange =>
    simp only [exec, execExchange] at h
    split at h <;> cases h <;> rfl
  | checksum | encodeFrame => cases h; rfl
  | decode | decodeFrame => cases h; exact finish_src ..

/-- No move of the Core, the Transport or the Clock writes SRC. -/
theorem Move.src {s t : State} (m : Move s t) : t.src = s.src := by
  cases m with
  | command i t hp hd ht => exact exec_src ht
  | observe r hp hr => exact observe_src r s
  | timeout hp hd => exact attemptFail_src ..
  | writeDone r n e hp hw ha => exact writeDone_src r n e s
  | illegal | delayEnd | readDone | tick | plan => rfl

/-- Of the host's steps, only a write of SRC and Reset change SRC. -/
theorem HostMove.src {s t : State} {x : HostStep} (m : HostMove s x t) (hw : ∀ i b, x ≠ .srcWrite i b)
    (hr : x ≠ .reset) : t.src = s.src := by
  cases m with
  | srcByte i b hb hi => exact absurd rfl (hw i b)
  | reset => exact absurd rfl hr
  | _ => rfl

/-- Settles O26: neither the host's other steps nor the moves of the other agents write SRC. -/
theorem onlyHostChangesSrc : Obligations.OnlyHostChangesSrc := by
  intro s t h hw hr
  rcases step_move s with ⟨x, rest, ha, hx⟩ | ⟨a, d, u, -, hu, m⟩
  · obtain rfl := Host.Outcome.next.inj (hx.symm.trans h)
    exact (hostStep_move x _).src (fun i b hi => hw i b rest (hi ▸ ha)) (fun hi => hr rest (hi ▸ ha))
  · obtain rfl := Host.Outcome.next.inj (hu.symm.trans h)
    exact m.src

/-! ### The completion record -/

/-- What the host finds of a finished command: its record, its word and its result (R75). -/
structure State.SameRecord (s t : State) : Prop where
  status : t.status = s.status
  dstLen : t.dstLen = s.dstLen
  dst : t.dst = s.dst
  xerr : t.xerr = s.xerr
  attemptIdx : t.attemptIdx = s.attemptIdx
  cmd : t.cmd = s.cmd
  phase : t.phase = s.phase

/-- In an idle state no step of the Core or the Transport is enabled (R204). -/
theorem Move.sameRecord {s t : State} (m : Move s t) (hp : s.phase = .idle) : s.SameRecord t := by
  have busy {p : Phase} (hp' : s.phase = p) (hne : p ≠ .idle) : s.SameRecord t :=
    absurd (hp'.symm.trans hp) hne
  cases m with
  | illegal _ hp' | command _ _ hp' | observe _ hp' | timeout hp' | delayEnd hp' | writeDone _ _ _ hp'
  | readDone _ hp' => exact busy hp' (by decide)
  | tick | plan => exact ⟨rfl, rfl, rfl, rfl, rfl, rfl, rfl⟩

/-- Of the host's steps, only a CMD write and Reset change the record or the result. -/
theorem HostMove.sameRecord {s t : State} {x : HostStep} (m : HostMove s x t) (hc : ∀ w, x ≠ .regWrite 0x00 w)
    (hr : x ≠ .reset) : s.SameRecord t := by
  cases m with
  | command w hb => exact absurd rfl (hc w)
  | reset => exact absurd rfl hr
  | _ => exact ⟨rfl, rfl, rfl, rfl, rfl, rfl, rfl⟩

/-- Settles O58: while idle only a host step can touch the record, and of those only a CMD write or Reset does. -/
theorem resultStaysUntilNextCommand : Obligations.ResultStaysUntilNextCommand := by
  intro s t _ hp h hc hr
  have hsame : s.SameRecord t := by
    rcases step_move s with ⟨x, rest, ha, hx⟩ | ⟨a, d, u, -, hu, m⟩
    · obtain rfl := Host.Outcome.next.inj (hx.symm.trans h)
      exact { (hostStep_move x { s with agenda := rest }).sameRecord (fun w hx => hc w rest (hx ▸ ha))
        (fun hx => hr rest (hx ▸ ha)) with }
    · obtain rfl := Host.Outcome.next.inj (hu.symm.trans h)
      exact { m.sameRecord hp with }
  obtain ⟨hstatus, hlen, hdst, hxerr, hidx, hcmd, hphase⟩ := hsame
  exact ⟨hstatus, hlen, hdst, hxerr, hidx, hcmd, hphase.trans hp⟩

end Sys2Proof.Machine
end

section
/-! PROOFS. The result of a command depends on its inputs alone (R72): one command step on two states with the same operand,
and two runs of an exchange that stay in lockstep. -/

namespace Sys2Proof.Machine

/-! ### One command on two states -/

/-- The operands agree, with the draws that stand for its unwritten bytes. -/
structure State.SameOperand (s u : State) : Prop where
  srcLen : u.srcLen = s.srcLen
  draws : u.draws = s.draws
  src : ∀ j, j < s.srcLen.toNat → u.src.byteAt j = s.src.byteAt j

/-- The completion records and the result bytes agree. -/
structure State.SameResult (s u : State) : Prop where
  status : u.status = s.status
  xerr : u.xerr = s.xerr
  dstLen : u.dstLen = s.dstLen
  dst : ∀ j, j < s.dstLen.toNat → u.dst.byteAt j = s.dst.byteAt j

theorem State.SameOperand.readBytes {s u : State} (h : s.SameOperand u) :
    Machine.readBytes u.src u.draws 0 u.srcLen.toNat = Machine.readBytes s.src s.draws 0 s.srcLen.toNat := by
  rw [h.srcLen, h.draws]
  exact readBytes_congr s.draws 0 _ fun j _ hj => h.src j (by omega)

theorem State.SameOperand.operand {s u : State} (h : s.SameOperand u) : operand u = operand s :=
  congrArg Prod.fst h.readBytes

theorem State.SameOperand.operandDraws {s u : State} (h : s.SameOperand u) : u.operandDraws = s.operandDraws :=
  congrArg Prod.snd h.readBytes

/-- A failure's record holds nothing of the state it ends in: its result has no bytes. -/
theorem complete_sameResult {e : ErrCode} (he : e ≠ .eNone) (info : Word) (s u : State) :
    (complete e info s).SameResult (complete e info u) where
  status := rfl
  xerr := rfl
  dstLen := by simp [he]
  dst := by simp [he]

/-- A success leaves the bytes of its result, whatever DST held. -/
theorem succeed_sameResult (out : List Byte) (s u : State) : (succeed out s).SameResult (succeed out u) where
  status := rfl
  xerr := rfl
  dstLen := rfl
  dst j hj := by
    have hlen : j < out.length := Nat.lt_of_lt_of_le hj (by simp [Nat.mod_le])
    have hout : 0 ≤ j ∧ j < 0 + out.length := by omega
    simp only [succeed_dst, Memory.byteAt_truncate, Memory.byteAt_putAll, if_pos hout]

theorem finish_sameResult {r : Except ErrCode (List Byte)} (hr : r ≠ .error .eNone) (s u : State) :
    (finish r s).SameResult (finish r u) := by
  cases r with
  | ok out => exact succeed_sameResult out s u
  | error e => exact complete_sameResult (fun he => hr (he ▸ rfl)) 0 s u

theorem cobsDecode_ne_eNone (bs : List Byte) (limit : Nat) : cobsDecode bs limit ≠ .error .eNone := by
  rcases cobsDecode_result bs limit with ⟨r, h, -⟩ | ⟨e, he, h⟩ <;> rw [h]
  · exact nofun
  · exact fun heq => (ne_of_mem_frameErrors (List.mem_append_left _ he)).1 (Except.error.inj heq)

theorem frameDecode_ne_eNone (bs : List Byte) : frameDecode bs ≠ .error .eNone := by
  rcases frameDecode_result bs with ⟨r, h, -⟩ | ⟨e, he, h⟩ <;> rw [h]
  · exact nofun
  · exact fun heq => (ne_of_mem_frameErrors he).1 (Except.error.inj heq)

/-- R72 for the commands of one step: the operand, and for ENCODE and DECODE the limit, fix the result. -/
theorem exec_sameResult {i : Instr} {s u : State} (hi : i ≠ .exchange) (h : s.SameOperand u)
    (hlim : i = .encode ∨ i = .decode → u.dstLimit = s.dstLimit) :
    ∃ s' u', exec i s = .next s' ∧ exec i u = .next u' ∧ s'.SameResult u' := by
  cases i with
  | encode =>
    simp only [exec, execEncode, h.operand, h.srcLen, hlim (.inl rfl)]
    split
    · exact ⟨_, _, rfl, rfl, succeed_sameResult ..⟩
    · split
      · exact ⟨_, _, rfl, rfl, complete_sameResult (by decide) ..⟩
      · exact ⟨_, _, rfl, rfl, succeed_sameResult ..⟩
  | decode =>
    simp only [exec, execDecode, h.operand, hlim (.inr rfl)]
    exact ⟨_, _, rfl, rfl, finish_sameResult (cobsDecode_ne_eNone _ _) ..⟩
  | checksum =>
    simp only [exec, execChecksum, h.operand]
    exact ⟨_, _, rfl, rfl, succeed_sameResult ..⟩
  | encodeFrame =>
    simp only [exec, execEncodeFrame, h.operand]
    exact ⟨_, _, rfl, rfl, succeed_sameResult ..⟩
  | decodeFrame =>
    simp only [exec, execDecodeFrame, h.operand]
    exact ⟨_, _, rfl, rfl, finish_sameResult (frameDecode_ne_eNone _) ..⟩
  | exchange => exact absurd rfl hi

/-! ### Two runs of an exchange -/

/-- The lists `c` and `d` extend `a` and `b` by the same elements. -/
def GrownAlike {α : Type} (a b c d : List α) : Prop := ∃ xs, c = a ++ xs ∧ d = b ++ xs

theorem GrownAlike.refl {α : Type} (a b : List α) : GrownAlike a b a b := ⟨[], by simp⟩

theorem GrownAlike.append {α : Type} {a b c d : List α} (h : GrownAlike a b c d) (ys : List α) :
    GrownAlike a b (c ++ ys) (d ++ ys) := by
  obtain ⟨xs, rfl, rfl⟩ := h
  exact ⟨xs ++ ys, by simp⟩

/-- What agrees in every phase of two runs of EXCHANGE that began in `s₀` and `u₀`: the inputs, the plan, what the host can
see of the command, and what was appended to the wire and to the event history.  (`{ h with phase := h.phase }` below carries
twins over to states that differ from them in other fields only.) -/
structure State.Twin (s₀ u₀ s u : State) : Prop extends s.SameOperand u, s.SameResult u where
  params : u.params = s.params
  cfgAttempts : u.cfgAttempts = s.cfgAttempts
  cfgRetryDelay : u.cfgRetryDelay = s.cfgRetryDelay
  cfgReadTimeout : u.cfgReadTimeout = s.cfgReadTimeout
  cmdLeft : s.cmd = encode .exchange
  cmdRight : u.cmd = encode .exchange
  attemptIdx : u.attemptIdx = s.attemptIdx
  phase : u.phase = s.phase
  agenda : u.agenda = s.agenda
  environment : ∀ t ∈ s.agenda, t.environment = true
  txlog : GrownAlike s₀.txlog u₀.txlog s.txlog u.txlog
  hist : GrownAlike s₀.hist u₀.hist s.hist u.hist

/-- What X_START latches agrees (R43, R181, R182). -/
structure State.SameLatches (s u : State) : Prop where
  latchN : u.latchN = s.latchN
  latchD : u.latchD = s.latchD
  latchT : u.latchT = s.latchT
  reqLen : u.reqLen = s.reqLen
  req : u.req = s.req

/-- What an attempt has so far agrees: the bytes accumulated, and the time since it was armed. -/
structure State.SameAttempt (s u : State) : Prop where
  acc : u.acc = s.acc
  armed : u.now + s.tArm = s.now + u.tArm

/-- The simulation relation of two runs of EXCHANGE.  The latches count only after X_START, and ACC, WR, RD and the timers only
in the phases that use them; before that the two states may hold anything there. -/
structure State.Lockstep (s₀ u₀ s u : State) : Prop extends State.Twin s₀ u₀ s u where
  latches : s.inExchange → s.SameLatches u
  attempt : s.phase = .write ∨ s.phase = .read → s.SameAttempt u
  wr : s.phase = .write → u.wr = s.wr
  rd : s.phase = .read → u.rd = s.rd
  failed : s.phase = .delay → u.now + s.tFail = s.now + u.tFail

/-- A transport error has the same word in both. -/
theorem State.Twin.xerrWord {s₀ u₀ s u : State} (h : State.Twin s₀ u₀ s u) (e : TransportError) :
    Machine.xerrWord u.params e = Machine.xerrWord s.params e := by
  rw [h.params]

section Operations
variable {s₀ u₀ s u : State}

/-- Outside WRITE, READ and DELAY twins are in lockstep, whatever the latches and ACC hold. -/
theorem State.Twin.lockstep (h : State.Twin s₀ u₀ s u) (hp : ¬ s.inExchange) : State.Lockstep s₀ u₀ s u := by
  obtain ⟨hw, hr, hd⟩ : s.phase ≠ .write ∧ s.phase ≠ .read ∧ s.phase ≠ .delay := by
    simpa [State.inExchange] using hp
  exact { h with
    latches := fun hx => absurd hx hp
    attempt := fun hx => hx.elim (absurd · hw) (absurd · hr)
    wr := fun hx => absurd hx hw
    rd := fun hx => absurd hx hr
    failed := fun hx => absurd hx hd }

theorem complete_lockstep (h : State.Twin s₀ u₀ s u) {e : ErrCode} (he : e ≠ .eNone) (info : Word) :
    State.Lockstep s₀ u₀ (complete e info s) (complete e info u) :=
  State.Twin.lockstep { complete_sameResult he info s u, h with phase := rfl } (by simp [State.inExchange])

theorem succeed_lockstep (h : State.Twin s₀ u₀ s u) (out : List Byte) :
    State.Lockstep s₀ u₀ (succeed out s) (succeed out u) :=
  State.Twin.lockstep { succeed_sameResult out s u, h with phase := rfl } (by simp [State.inExchange])

theorem beginAttempt_lockstep (h : State.Twin s₀ u₀ s u) (hl : s.SameLatches u) :
    State.Lockstep s₀ u₀ (beginAttempt s) (beginAttempt u) where
  toTwin := { h with
    attemptIdx := congrArg (· + 1) h.attemptIdx
    phase := rfl
    hist := by simpa [hl.req] using h.hist.append [.writeReq s.req] }
  latches _ := { hl with }
  attempt _ := ⟨rfl, Nat.add_comm ..⟩
  wr _ := congrArg some hl.req
  rd := nofun
  failed := nofun

theorem issueRead_lockstep (h : State.Twin s₀ u₀ s u) (hl : s.SameLatches u) (ha : s.SameAttempt u) :
    State.Lockstep s₀ u₀ (issueRead s) (issueRead u) where
  toTwin := { h with phase := rfl, hist := h.hist.append [.readReq] }
  latches _ := { hl with }
  attempt _ := { ha with }
  wr := nofun
  rd _ := rfl
  failed := nofun

theorem attemptFail_lockstep (h : State.Twin s₀ u₀ s u) (hl : s.SameLatches u) {e : ErrCode} (he : e ≠ .eNone)
    (info : Word) : State.Lockstep s₀ u₀ (attemptFail e info s) (attemptFail e info u) := by
  by_cases hlast : s.attemptIdx = s.latchN
  · have hlast' : u.attemptIdx = u.latchN := by rw [h.attemptIdx, hl.latchN, hlast]
    have ht : State.Twin s₀ u₀ { s with lastErr := e, lastXerr := info, acc := [] }
        { u with lastErr := e, lastXerr := info, acc := [] } := { h with phase := h.phase }
    rw [attemptFail, attemptFail, if_pos hlast, if_pos hlast']
    exact complete_lockstep ht he info
  · have hlast' : u.attemptIdx ≠ u.latchN := by rwa [h.attemptIdx, hl.latchN]
    rw [attemptFail_retry e info hlast, attemptFail_retry e info hlast']
    exact {
      toTwin := { h with phase := rfl }
      latches := fun _ => { hl with }
      attempt := fun hp => by simp at hp
      wr := nofun
      rd := nofun
      failed := fun _ => Nat.add_comm .. }

theorem deliver_lockstep (h : State.Twin s₀ u₀ s u) (hl : s.SameLatches u) (m : List Byte) :
    State.Lockstep s₀ u₀ (deliver m s) (deliver m u) := by
  unfold deliver
  split
  · rename_i e he
    exact attemptFail_lockstep h hl (fun h' => frameDecode_ne_eNone m (h' ▸ he)) 0
  · exact succeed_lockstep h _

theorem takeChunk_lockstep (h : State.Twin s₀ u₀ s u) (hl : s.SameLatches u) (ha : s.SameAttempt u) (bs : List Byte) :
    State.Lockstep s₀ u₀ (takeChunk bs s) (takeChunk bs u) := by
  cases bs with
  | nil =>
    simp only [takeChunk, ha.acc]
    split
    · exact attemptFail_lockstep h hl (by decide) 0
    · exact issueRead_lockstep h hl ha
  | cons b bs =>
    have hscan : scan u.params.rxCap u.acc (b :: bs) = scan s.params.rxCap s.acc (b :: bs) := by
      rw [h.params, ha.acc]
    simp only [takeChunk, hscan]
    split
    · exact deliver_lockstep { h with phase := h.phase } { hl with } _
    · exact attemptFail_lockstep h hl (by decide) 0
    · exact issueRead_lockstep { h with phase := h.phase } { hl with } ⟨rfl, ha.armed⟩

/-! ### The steps of the exchange -/

theorem execExchange_lockstep (h : State.Twin s₀ u₀ s u) :
    ∃ s' u', execExchange s = .next s' ∧ execExchange u = .next u' ∧ State.Lockstep s₀ u₀ s' u' := by
  have ht : State.Twin s₀ u₀ (latchRequest s) (latchRequest u) := { h with draws := h.operandDraws }
  simp only [execExchange, h.operand]
  split
  · refine ⟨_, _, rfl, rfl, beginAttempt_lockstep { ht with } ?_⟩
    exact ⟨h.cfgAttempts, h.cfgRetryDelay, h.cfgReadTimeout, h.srcLen, h.operand⟩
  · exact ⟨_, _, rfl, rfl, complete_lockstep ht (by decide) 0⟩

theorem writeDone_lockstep (h : State.Lockstep s₀ u₀ s u) (hp : s.phase = .write) (r : List Byte) (n : Nat)
    (e : Option TransportError) : State.Lockstep s₀ u₀ (writeDone r n e s) (writeDone r n e u) := by
  have hl := h.latches (.inl hp)
  have ht : State.Twin s₀ u₀
      { s with txlog := s.txlog ++ r.take n, hist := s.hist ++ [.writeDone n e], wr := none }
      { u with txlog := u.txlog ++ r.take n, hist := u.hist ++ [.writeDone n e], wr := none } :=
    { h with txlog := h.txlog.append _, hist := h.hist.append _ }
  cases e with
  | some err =>
    simp only [writeDone, h.xerrWord]
    exact attemptFail_lockstep ht { hl with } (by decide) _
  | none =>
    have hlen : (n ≠ u.reqLen.toNat) = (n ≠ s.reqLen.toNat) := by rw [hl.reqLen]
    simp only [writeDone, hlen]
    split
    · exact attemptFail_lockstep ht { hl with } (by decide) 0
    · exact issueRead_lockstep ht { hl with } { h.attempt (.inl hp) with }

theorem readDone_lockstep (h : State.Lockstep s₀ u₀ s u) (r : ReadAnswer) :
    State.Lockstep s₀ u₀ (readDone r s) (readDone r u) where
  toTwin := { h with hist := h.hist.append _ }
  latches hp := { h.latches hp with }
  attempt hp := { h.attempt hp with }
  wr := h.wr
  rd _ := rfl
  failed := h.failed

theorem observe_lockstep (h : State.Lockstep s₀ u₀ s u) (hp : s.phase = .read) (r : ReadAnswer) :
    State.Lockstep s₀ u₀ (observe r s) (observe r u) := by
  have hl : State.SameLatches { s with rd := .none } { u with rd := .none } := { h.latches (.inr (.inl hp)) with }
  have ht : State.Twin s₀ u₀ { s with rd := .none } { u with rd := .none } := { h with phase := h.phase }
  cases r with
  | rdErr e =>
    simp only [observe, h.xerrWord]
    exact attemptFail_lockstep ht hl (by decide) _
  | chunk bs => exact takeChunk_lockstep ht hl { h.attempt (.inr hp) with } bs

theorem timeout_lockstep (h : State.Lockstep s₀ u₀ s u) (hp : s.phase = .read) :
    State.Lockstep s₀ u₀ (timeout s) (timeout u) := by
  have hl := h.latches (.inr (.inl hp))
  have ht : State.Twin s₀ u₀ { s with rd := .none, hist := s.hist ++ cancelEvents s.rd }
      { u with rd := .none, hist := u.hist ++ cancelEvents u.rd } :=
    { h with hist := h.rd hp ▸ h.hist.append (cancelEvents s.rd) }
  exact attemptFail_lockstep ht { hl with } (by decide) 0

theorem tick_lockstep (h : State.Lockstep s₀ u₀ s u) : State.Lockstep s₀ u₀ (tick s) (tick u) where
  toTwin := { h with }
  latches hp := { h.latches hp with }
  attempt hp := ⟨(h.attempt hp).acc, by
    have := (h.attempt hp).armed
    simp only [tick_now, tick_tArm]; omega⟩
  wr := h.wr
  rd := h.rd
  failed hp := by
    have := h.failed hp
    simp only [tick_now, tick_tFail]; omega

/-- Both runs may take a new plan and a new count of draws, the same in both. -/
theorem State.Lockstep.replan (h : State.Lockstep s₀ u₀ s u) {a : List Turn} (ha : ∀ t ∈ a, t.environment = true)
    (d : Nat) : State.Lockstep s₀ u₀ { s with agenda := a, draws := d } { u with agenda := a, draws := d } where
  toTwin := { h with draws := rfl, agenda := rfl, environment := ha }
  latches hp := { h.latches hp with }
  attempt hp := { h.attempt hp with }
  wr := h.wr
  rd := h.rd
  failed := h.failed

/-! ### Turns -/

/-- The same Core steps are enabled in both states. -/
theorem coreEnabled_lockstep (h : State.Lockstep s₀ u₀ s u) (c : CoreStep) : coreEnabled c u = coreEnabled c s := by
  cases c with
  | exec => simp only [coreEnabled, h.phase]
  | observe =>
    by_cases hp : s.phase = .read
    · simp only [coreEnabled, h.phase, h.rd hp]
    · simp only [coreEnabled, h.phase, beq_false_of_ne hp]
      cases s.rd <;> cases u.rd <;> rfl
  | timeout =>
    by_cases hp : s.phase = .read
    · have ht : u.now - u.tArm = s.now - s.tArm := by
        have := (h.attempt (.inr hp)).armed
        omega
      simp only [coreEnabled, h.phase, deadlineFired, ht, (h.latches (.inr (.inl hp))).latchT]
    · simp only [coreEnabled, h.phase, beq_false_of_ne hp, Bool.false_and]
  | delayEnd =>
    by_cases hp : s.phase = .delay
    · have ht : u.now - u.tFail = s.now - s.tFail := by
        have := h.failed hp
        omega
      simp only [coreEnabled, h.phase, delayOver, ht, (h.latches (.inr (.inr hp))).latchD]
    · simp only [coreEnabled, h.phase, beq_false_of_ne hp, Bool.false_and]

/-- Both outcomes are next states, in lockstep. -/
def NextInLockstep (s₀ u₀ : State) (x y : Host.Outcome State Fault Refusal) : Prop :=
  ∃ s' u', x = .next s' ∧ y = .next u' ∧ State.Lockstep s₀ u₀ s' u'

theorem State.Lockstep.next (h : State.Lockstep s₀ u₀ s u) : NextInLockstep s₀ u₀ (.next s) (.next u) :=
  ⟨s, u, rfl, rfl, h⟩

theorem execCommand_lockstep (h : State.Lockstep s₀ u₀ s u) :
    NextInLockstep s₀ u₀ (execCommand s) (execCommand u) := by
  simp only [execCommand, h.cmdLeft, h.cmdRight, decode_encode]
  exact execExchange_lockstep h.toTwin

theorem coreEffect_lockstep (h : State.Lockstep s₀ u₀ s u) {c : CoreStep} (hc : coreEnabled c s = true) :
    NextInLockstep s₀ u₀ (coreEffect c s) (coreEffect c u) := by
  cases c with
  | exec => exact execCommand_lockstep h
  | observe =>
    simp only [coreEnabled] at hc
    split at hc
    · rename_i r hr
      have hp : s.phase = .read := by simpa using hc
      simp only [coreEffect, h.rd hp, hr]
      exact (observe_lockstep h hp r).next
    · cases hc
    · cases hc
  | timeout =>
    simp only [coreEnabled, Bool.and_eq_true, beq_iff_eq] at hc
    exact (timeout_lockstep h hc.1).next
  | delayEnd =>
    simp only [coreEnabled, Bool.and_eq_true, beq_iff_eq] at hc
    exact (beginAttempt_lockstep h.toTwin (h.latches (.inr (.inr hc.1)))).next

theorem coreStep_lockstep (h : State.Lockstep s₀ u₀ s u) (c : CoreStep) :
    NextInLockstep s₀ u₀ (coreStep c s) (coreStep c u) := by
  simp only [coreStep, coreEnabled_lockstep h]
  split
  · rename_i hc; exact coreEffect_lockstep h hc
  · exact h.next

theorem transportStep_writeDone_of_ne {n : Nat} {e : Option TransportError} (hp : s.phase ≠ .write) :
    transportStep (.writeDone n e) s = s := by
  simp only [transportStep, hp, false_and, if_false]
  split <;> rfl

theorem transportStep_readDone_of_ne {r : ReadAnswer} (hp : s.phase ≠ .read) : transportStep (.readDone r) s = s :=
  if_neg fun h => hp h.1

theorem transportStep_lockstep (h : State.Lockstep s₀ u₀ s u) (a : TransportStep) :
    State.Lockstep s₀ u₀ (transportStep a s) (transportStep a u) := by
  cases a with
  | writeDone n e =>
    by_cases hp : s.phase = .write
    · simp only [transportStep, h.wr hp, h.phase, h.params]
      split
      · split
        · exact writeDone_lockstep h hp _ n e
        · exact h
      · exact h
    · rwa [transportStep_writeDone_of_ne hp, transportStep_writeDone_of_ne (h.phase ▸ hp)]
  | readDone r =>
    by_cases hp : s.phase = .read
    · simp only [transportStep, h.rd hp, h.phase, h.params]
      split
      · exact readDone_lockstep h r
      · exact h
    · rwa [transportStep_readDone_of_ne hp, transportStep_readDone_of_ne (h.phase ▸ hp)]

theorem ownMove_lockstep (h : State.Lockstep s₀ u₀ s u) : NextInLockstep s₀ u₀ (ownMove s) (ownMove u) := by
  have hdrawn : State.Lockstep s₀ u₀ (drawBool s).2 (drawBool u).2 := by
    simpa [drawBool, h.draws, h.agenda] using h.replan h.environment (s.draws + 1)
  have hchoice : (drawBool u).1 = (drawBool s).1 := by simp only [drawBool, h.draws]
  simp only [ownMove, coreEnabled_lockstep h, hchoice]
  split
  · rename_i hc; exact coreEffect_lockstep h hc
  · split
    · rename_i hc
      rw [Bool.and_eq_true] at hc
      split
      · exact coreEffect_lockstep hdrawn hc.1
      · exact coreEffect_lockstep hdrawn hc.2
    · split
      · rename_i hc; exact coreEffect_lockstep h hc
      · split
        · rename_i hc; exact coreEffect_lockstep h hc
        · split
          · rename_i hc; exact coreEffect_lockstep h hc
          · exact (tick_lockstep h).next

theorem takeTurn_lockstep (h : State.Lockstep s₀ u₀ s u) {t : Turn} (ht : t.environment = true) :
    NextInLockstep s₀ u₀ (takeTurn t s) (takeTurn t u) := by
  cases t with
  | core c => exact coreStep_lockstep h c
  | transport a => exact (transportStep_lockstep h a).next
  | tick => exact (tick_lockstep h).next
  | own => exact ownMove_lockstep h
  | host | poll | readBack => cases ht

/-! ### Runs -/

theorem step_lockstep (h : State.Lockstep s₀ u₀ s u) : NextInLockstep s₀ u₀ (step s) (step u) := by
  cases ha : s.agenda with
  | nil =>
    simp only [step, h.agenda, ha]
    exact ownMove_lockstep h
  | cons t rest =>
    have henv : ∀ x ∈ t :: rest, x.environment = true := ha ▸ h.environment
    obtain ⟨ht, hrest⟩ := List.forall_mem_cons.1 henv
    have hnext : State.Lockstep s₀ u₀ { s with agenda := rest } { u with agenda := rest } := by
      simpa [h.draws] using h.replan hrest s.draws
    rw [step_of_agenda ha, step_of_agenda (h.agenda.trans ha)]
    exact takeTurn_lockstep hnext ht

end Operations

theorem run_succ_of_step {s t : State} (h : step s = .next t) (k : Nat) :
    Sys2Proof.core.run (k + 1) s = Sys2Proof.core.run k t := by
  have hcore : Sys2Proof.core.step s = .next t := h
  simp only [Host.Core.run, hcore]

theorem run_lockstep {s₀ u₀ s u : State} (h : State.Lockstep s₀ u₀ s u) (k : Nat) :
    NextInLockstep s₀ u₀ (Sys2Proof.core.run k s) (Sys2Proof.core.run k u) := by
  induction k generalizing s u with
  | zero => exact h.next
  | succ k ih =>
    obtain ⟨s', u', hs, hu, h'⟩ := step_lockstep h
    rw [run_succ_of_step hs, run_succ_of_step hu]
    exact ih h'

/-- Settles O27: a command of one step shows what its operand fixes, and an accepted EXCHANGE puts the two states in lockstep,
which every later step keeps. -/
theorem resultDependsOnInputsOnly : Obligations.ResultDependsOnInputsOnly := by
  refine ⟨fun s u i hi hlen hlim hdraws hsrc => ?_, ?_⟩
  · obtain ⟨s', u', hs, hu, hstatus, hxerr, hdstLen, hdst⟩ := exec_sameResult hi ⟨hlen, hdraws, hsrc⟩ hlim
    exact ⟨s', u', hs, hu, hstatus, hxerr, hdstLen, hdst⟩
  · intro s u rest k ha hagenda hrest hbs hbu hparams hlen hattempts hdelay htimeout hdraws hsrc
    have htwin : State.Twin s u (acceptCommand (encode .exchange) { s with agenda := rest })
        (acceptCommand (encode .exchange) { u with agenda := rest }) := {
      srcLen := hlen, draws := hdraws, src := hsrc, params := hparams
      cfgAttempts := hattempts, cfgRetryDelay := hdelay, cfgReadTimeout := htimeout
      status := rfl, xerr := rfl, dstLen := rfl, dst := by simp
      cmdLeft := rfl, cmdRight := rfl, attemptIdx := rfl, phase := rfl, agenda := rfl, environment := hrest
      txlog := .refl .., hist := .refl .. }
    have hstarts := (cmdWriteStartsCommand s rest _ ha).1 hbs
    have hstartu := (cmdWriteStartsCommand u rest _ (hagenda.trans ha)).1 hbu
    obtain ⟨s', u', hs, hu, h⟩ := run_lockstep (htwin.lockstep (by simp [State.inExchange])) k
    obtain ⟨bs, hts, htu⟩ := h.txlog
    obtain ⟨es, hes, heu⟩ := h.hist
    exact ⟨s', u', bs, es, (run_succ_of_step hstarts k).trans hs, (run_succ_of_step hstartu k).trans hu, h.status, h.xerr,
      h.dstLen, h.attemptIdx, h.phase, hts, htu, hes, heu, h.dst⟩

end Sys2Proof.Machine
end

section
/-! PROOFS. Which words select a command, what an illegal word does, and how a host polls. -/

namespace Sys2Proof.Machine

/-! ### Command words -/

/-- The decoder and the encoder agree on every word (R91). -/
theorem decode_eq_ok_iff (w : Word) (i : Instr) : decode w = .ok i ↔ w = encode i :=
  ⟨eq_encode_of_decode, fun h => h ▸ decode_encode i⟩

/-- Settles O4: the decoder and the encoder agree, and the six words are the encoder's. -/
theorem wordSelectsCommandExactly : Obligations.WordSelectsCommandExactly :=
  ⟨fun w => ⟨decode_eq_ok_iff w .encode, decode_eq_ok_iff w .decode, decode_eq_ok_iff w .checksum,
    decode_eq_ok_iff w .encodeFrame, decode_eq_ok_iff w .decodeFrame, decode_eq_ok_iff w .exchange⟩,
    decode_eq_ok_iff⟩

/-- Settles O5: each of the six words is what the encoder gives for its command. -/
theorem specWordsDecode : Obligations.SpecWordsDecode :=
  ⟨decode_encode .encode, decode_encode .decode, decode_encode .checksum, decode_encode .encodeFrame,
    decode_encode .decodeFrame, decode_encode .exchange⟩

/-! ### Illegal words -/

theorem wordWellFormed_encode (i : Instr) : wordWellFormed (encode i) = true := by
  cases i <;> decide

/-- The words of R92, by their fields. -/
theorem wordWellFormed_eq_false_iff (w : Word) : wordWellFormed w = false ↔
    (w.extractLsb' 8 24 ≠ 0 ∨ w.extractLsb' 0 8 = 0 ∨ 7 ≤ (w.extractLsb' 0 8).toNat) := by
  have hzero : w.extractLsb' 0 8 = 0 ↔ (w.extractLsb' 0 8).toNat = 0 := BitVec.toNat_eq
  rw [hzero]
  simp only [wordWellFormed, reservedClear, opcodeAssigned, Bool.and_eq_false_iff, beq_eq_false_iff_ne,
    decide_eq_false_iff_not]
  exact or_congr_right (by omega)

/-- Only well-formed words select a command. -/
theorem decode_error_of_illFormed {w : Word} (h : wordWellFormed w = false) : ∃ e, decode w = .error e := by
  cases hd : decode w with
  | error e => exact ⟨e, rfl⟩
  | ok i =>
    rw [eq_encode_of_decode hd, wordWellFormed_encode] at h
    cases h

theorem coreStep_exec_illegal {s : State} {e : DecodeError} (hp : s.phase = .exec) (hd : decode s.cmd = .error e) :
    coreStep .exec s = .next (complete .eIllegalCmd 0 s) := by
  simp [coreStep, coreEnabled, coreEffect, execCommand, hp, hd]

/-- Settles O6: the word selects no command, and E_ILLEGAL_CMD is a code that keeps DST. -/
theorem illegalWordCompletes : Obligations.IllegalWordCompletes := by
  intro s rest ha hp hw
  obtain ⟨e, hd⟩ := decode_error_of_illFormed ((wordWellFormed_eq_false_iff s.cmd).2 hw)
  have hstep : step s = .next (complete .eIllegalCmd 0 { s with agenda := rest }) :=
    (step_of_agenda ha).trans (coreStep_exec_illegal hp hd)
  rw [hstep, complete_keeps 0 { s with agenda := rest } rfl]

/-! ### Polling -/

theorem step_poll {s : State} {rest : List Turn} (h : s.agenda = .poll :: rest) :
    step s = .next { s with
      agenda := if s.status.busy then pollAgain rest else rest
      reads := s.reads ++ [.word s.status.word] } := by
  have hread : regRead 0x04 { s with agenda := rest } = s.status.word := regRead_offset .status _
  rw [step_of_agenda h]
  simp only [takeTurn, pollStep, returned, hread]
  split <;> rfl

/-- One turn of another agent comes before the next `poll`: the next planned one, or the block's own move. -/
theorem pollAgain_eq (rest : List Turn) : ∃ (t : Turn) (rest' : List Turn),
    pollAgain rest = t :: .poll :: rest' ∧
      (t = .own ∧ rest' = rest ∨ rest = t :: rest') ∧ t.environment = true := by
  cases rest with
  | nil => exact ⟨.own, [], rfl, .inl ⟨rfl, rfl⟩, rfl⟩
  | cons t rest =>
    by_cases ht : t.environment = true
    · exact ⟨t, rest, if_pos ht, .inr rfl, ht⟩
    · exact ⟨.own, t :: rest, if_neg ht, .inl ⟨rfl, rfl⟩, rfl⟩

/-- Settles O59: `poll` records STATUS, and goes back into the plan behind one turn while BUSY is 1. -/
theorem pollRepeatsWhileBusy : Obligations.PollRepeatsWhileBusy := by
  intro s rest ha
  refine ⟨fun hb => by simp [step_poll ha, hb], fun hb => ?_⟩
  obtain ⟨t, rest', hplan, hnext, henv⟩ := pollAgain_eq rest
  refine ⟨t, rest', by simp [step_poll ha, hb, hplan], hnext, ?_⟩
  rintro h rfl
  cases henv

end Sys2Proof.Machine
end

section
/-! PROOFS. What the stuffing loop puts out: its length, its blocks, and that no byte is zero. -/

namespace Sys2Proof.Machine

/-! ### The length -/

/-- The lower bound of R124: every run costs at least its code byte. -/
theorem le_stuff_length (run vs : List Byte) (h : run.length ≤ 253) :
    run.length + vs.length + 1 ≤ (stuff run vs).length := by
  refine stuff_induct (P := fun run vs => run.length + vs.length + 1 ≤ (stuff run vs).length)
    ?last ?zero ?full ?more run vs h
  case last => simp
  case zero =>
    intro run vs _ ih
    simp only [stuff_zero, List.length_append, block_length, List.length_cons, List.length_nil] at ih ⊢
    omega
  case full =>
    intro run v vs h hv ih
    simp only [stuff_full vs h hv, List.length_append, block_length, List.length_cons, List.length_nil] at ih ⊢
    omega
  case more =>
    intro run v vs h hv ih
    simp only [stuff_more vs h hv, List.length_append, List.length_cons, List.length_nil] at ih ⊢
    omega

theorem cobsEncode_eq_stuff {s : List Byte} (h : s ≠ []) : cobsEncode s = stuff [] s := by
  cases s with
  | nil => exact absurd rfl h
  | cons v vs => rfl

/-- Settles O30: the stuffing loop pays at least one code byte, and `cobsEncode_length_le` is the upper bound. -/
theorem stuffedLengthBounds : Obligations.StuffedLengthBounds := by
  refine ⟨rfl, rfl, rfl, fun s hs => ⟨?_, cobsEncode_length_le s⟩⟩
  simpa [cobsEncode_eq_stuff hs] using le_stuff_length [] s (Nat.zero_le _)

/-! ### No zero byte -/

theorem zero_notMem_block {run : List Byte} (h : run.length ≤ 254) (hz : (0 : Byte) ∉ run) :
    (0 : Byte) ∉ block run := by
  rw [block, List.mem_cons, not_or]
  exact ⟨(block_code h).2.symm, hz⟩

theorem zero_notMem_stuff (run vs : List Byte) (h : run.length ≤ 253) :
    (0 : Byte) ∉ run → (0 : Byte) ∉ stuff run vs := by
  have grow {run : List Byte} {v : Byte} (hv : v ≠ 0) (hz : (0 : Byte) ∉ run) : (0 : Byte) ∉ run ++ [v] := by
    rw [List.mem_append, List.mem_singleton, not_or]
    exact ⟨hz, hv.symm⟩
  refine stuff_induct (P := fun run vs => (0 : Byte) ∉ run → (0 : Byte) ∉ stuff run vs)
    ?last ?zero ?full ?more run vs h
  case last => exact fun run h hz => zero_notMem_block (by omega) hz
  case zero =>
    intro run vs h ih hz
    rw [stuff_zero, List.mem_append, not_or]
    exact ⟨zero_notMem_block (by omega) hz, ih List.not_mem_nil⟩
  case full =>
    intro run v vs h hv ih hz
    rw [stuff_full vs h hv, List.mem_append, not_or]
    exact ⟨zero_notMem_block (by simp [h]) (grow hv hz), ih List.not_mem_nil⟩
  case more =>
    intro run v vs h hv ih hz
    rw [stuff_more vs h hv]
    exact ih (grow hv hz)

/-! ### Blocks -/

/-- A sequence of blocks as R125 describes it: runs of at most 254 bytes, the last of at most 253. -/
def IsBlocks (bs : List Byte) : Prop :=
  ∃ (runs : List (List Byte)) (last : List Byte),
    bs = (runs.map block).flatten ++ block last ∧ (∀ r ∈ runs, r.length ≤ 254) ∧ last.length ≤ 253

theorem IsBlocks.last {run : List Byte} (h : run.length ≤ 253) : IsBlocks (block run) :=
  ⟨[], run, rfl, by simp, h⟩

theorem IsBlocks.cons {run bs : List Byte} (h : run.length ≤ 254) (hb : IsBlocks bs) :
    IsBlocks (block run ++ bs) := by
  obtain ⟨runs, last, rfl, hruns, hlast⟩ := hb
  exact ⟨run :: runs, last, by simp, List.forall_mem_cons.2 ⟨h, hruns⟩, hlast⟩

theorem stuff_isBlocks (run vs : List Byte) (h : run.length ≤ 253) : IsBlocks (stuff run vs) := by
  refine stuff_induct (P := fun run vs => IsBlocks (stuff run vs)) ?last ?zero ?full ?more run vs h
  case last => exact fun run h => .last h
  case zero =>
    intro run vs h ih
    rw [stuff_zero]
    exact .cons (by omega) ih
  case full =>
    intro run v vs h hv ih
    rw [stuff_full vs h hv]
    exact .cons (by simp [h]) ih
  case more =>
    intro run v vs h hv ih
    rw [stuff_more vs h hv]
    exact ih

/-- Settles O31: the stuffing loop puts out one block after another, with code bytes and runs free of zeros. -/
theorem stuffedOutputIsBlocks : Obligations.StuffedOutputIsBlocks := by
  intro s
  by_cases hs : s = []
  · subst hs
    exact ⟨List.not_mem_nil, fun h => absurd rfl h⟩
  · rw [cobsEncode_eq_stuff hs]
    exact ⟨zero_notMem_stuff [] s (Nat.zero_le _) List.not_mem_nil, fun _ => stuff_isBlocks [] s (Nat.zero_le _)⟩

end Sys2Proof.Machine
end

section
/-! PROOFS. The loops of the codec against the spec's pseudocode, the round trip, and how much unstuffing shortens. -/

namespace Sys2Proof.Machine

/-! ### The stuffing loop with its placeholder bytes (R120) -/

/-- The end of R120: the last code byte is put in its place. -/
def EncodeLoop.finish (l : EncodeLoop) : List Byte := l.out.set l.ci (BitVec.ofNat 8 l.code)

/-- The variables of R120's loop after the blocks `placed` and the bytes `run` behind a placeholder. -/
def EncodeLoop.pending (placed run : List Byte) : EncodeLoop :=
  { out := placed ++ 0 :: run, ci := placed.length, code := run.length + 1 }

theorem EncodeLoop.finish_pending (placed run : List Byte) : (pending placed run).finish = placed ++ block run := by
  simp [finish, pending, block]

theorem EncodeLoop.next_zero (placed run : List Byte) : (pending placed run).next 0 = pending (placed ++ block run) [] := by
  simp [next, pending, block]

theorem EncodeLoop.next_full {run : List Byte} {v : Byte} (placed : List Byte) (h : run.length = 253) (hv : v ≠ 0) :
    (pending placed run).next v = pending (placed ++ block (run ++ [v])) [] := by
  simp only [next, if_neg hv]
  simp [pending, block, h]

theorem EncodeLoop.next_more {run : List Byte} {v : Byte} (placed : List Byte) (h : run.length < 253) (hv : v ≠ 0) :
    (pending placed run).next v = pending placed (run ++ [v]) := by
  have hcode : run.length + 1 + 1 ≠ 0xFF := by omega
  simp only [next, if_neg hv]
  simp [pending, hcode]

/-- R120's loop puts the blocks of the stuffing loop behind those already placed. -/
theorem EncodeLoop.finish_foldl_next (run vs : List Byte) (h : run.length ≤ 253) :
    ∀ placed, (vs.foldl next (pending placed run)).finish = placed ++ stuff run vs := by
  refine stuff_induct (P := fun run vs => ∀ placed, (vs.foldl next (pending placed run)).finish = placed ++ stuff run vs)
    ?last ?zero ?full ?more run vs h
  case last => exact fun run _ placed => finish_pending placed run
  case zero =>
    intro run vs _ ih placed
    rw [List.foldl_cons, next_zero, ih, stuff_zero, List.append_assoc]
  case full =>
    intro run v vs h hv ih placed
    rw [List.foldl_cons, next_full placed h hv, ih, stuff_full vs h hv, List.append_assoc]
  case more =>
    intro run v vs h hv ih placed
    rw [List.foldl_cons, next_more placed h hv, ih, stuff_more vs h hv]

/-- Settles O28: R120's loop starts with no block and an empty run. -/
theorem stuffingMatchesPseudocode : Obligations.StuffingMatchesPseudocode := by
  intro s
  cases s with
  | nil => rfl
  | cons v vs => exact (EncodeLoop.finish_foldl_next [] (v :: vs) (Nat.zero_le _) []).symm

/-! ### The unstuffing loop with its index (R122) -/

theorem unstuff_fuel_zero (limit : Nat) (rest out : List Byte) (phantom : Bool) :
    unstuff limit 0 rest out phantom = .ok (if phantom then out.dropLast else out) := by
  cases rest <;> rfl

/-- R122's loop at index `i` is the unstuffing loop on the bytes from `i` on. -/
theorem decodeLoop_eq_unstuff (limit : Nat) (s : List Byte) (fuel i : Nat) (out : List Byte) (phantom : Bool) :
    decodeLoop limit s fuel i out phantom = unstuff limit fuel (s.drop i) out phantom := by
  induction fuel generalizing i out phantom with
  | zero => rw [unstuff_fuel_zero, decodeLoop, List.dropLast_eq_take]
  | succ fuel ih =>
    by_cases hi : s.length ≤ i
    · rw [List.drop_eq_nil_of_le hi, unstuff_nil, decodeLoop, if_pos hi, List.dropLast_eq_take]
    · have hi' : i < s.length := by omega
      have hget : s.getD i 0 = s[i] := by simp [hi']
      have hzero : s[i].toNat = 0 ↔ s[i] = 0 := (BitVec.toNat_eq (y := 0)).symm
      have hshort : s.length < i + s[i].toNat ↔ (s.drop (i + 1)).length + 1 < s[i].toNat := by
        rw [List.length_drop]; omega
      simp only [List.drop_eq_getElem_cons hi', decodeLoop, if_neg hi, unstuff, hget, hzero, hshort, ih]
      split
      case isTrue => rfl
      case isFalse h0 =>
        split
        case isTrue => rfl
        case isFalse hlen =>
          have hcode : s[i].toNat ≠ 0 := mt hzero.1 h0
          have hdrop : i + 1 + (s[i].toNat - 1) = i + s[i].toNat := by omega
          have htake : ((s.drop (i + 1)).take (s[i].toNat - 1)).length = s[i].toNat - 1 :=
            List.length_take_of_le (by omega)
          rw [List.drop_drop, hdrop, List.length_append, htake]

/-- Settles O29: R122's loop starts at index 0. -/
theorem unstuffingMatchesPseudocode : Obligations.UnstuffingMatchesPseudocode := fun s limit =>
  (decodeLoop_eq_unstuff limit s s.length 0 [] false).symm

/-! ### The round trip (R126) -/

/-- With fuel and room enough, unstuffing the blocks that stand for `run` and `vs` adds those bytes to the output. -/
def UnstuffsBack (limit : Nat) (run vs : List Byte) : Prop :=
  ∀ (fuel : Nat) (out : List Byte) (phantom : Bool),
    (stuff run vs).length ≤ fuel → out.length + run.length + vs.length + 1 ≤ limit →
      unstuff limit fuel (stuff run vs) out phantom = .ok (out ++ run ++ vs)

theorem unstuffsBack (limit : Nat) (run vs : List Byte) (h : run.length ≤ 253) : UnstuffsBack limit run vs := by
  refine stuff_induct (P := UnstuffsBack limit) ?last ?zero ?full ?more run vs h
  case last =>
    intro run hr fuel out phantom hf hl
    cases fuel with
    | zero => simp at hf
    | succ fuel =>
      rw [stuff_nil, ← List.append_nil (block run), unstuff_block phantom hr hl, unstuff_nil]
      simp
  case zero =>
    intro run vs hr ih fuel out phantom hf hl
    simp only [stuff_zero, List.length_append, block_length, List.length_cons] at hf hl
    cases fuel with
    | zero => omega
    | succ fuel =>
      rw [stuff_zero, unstuff_block phantom hr (by omega), ih fuel _ true (by omega) (by simp; omega)]
      simp
  case full =>
    intro run v vs hr hv ih fuel out phantom hf hl
    have hrun : (run ++ [v]).length = 254 := by simp [hr]
    simp only [stuff_full vs hr hv, List.length_append, block_length, List.length_cons] at hf hl
    cases fuel with
    | zero => omega
    | succ fuel =>
      rw [stuff_full vs hr hv, unstuff_boundary phantom hrun (by omega),
        ih fuel _ false (by omega) (by simp; omega)]
      simp
  case more =>
    intro run v vs hr hv ih fuel out phantom hf hl
    rw [stuff_more vs hr hv] at hf ⊢
    rw [ih fuel out phantom hf (by simp at hl ⊢; omega)]
    simp

theorem cobsDecode_cobsEncode {s : List Byte} {limit : Nat} (h : s.length + 1 ≤ limit) :
    cobsDecode (cobsEncode s) limit = .ok s := by
  cases s with
  | nil => rfl
  | cons v vs => exact unstuffsBack limit [] (v :: vs) (Nat.zero_le _) _ [] false (Nat.le_refl _) (by simpa using h)

/-- Settles O32: the stuffed length is room enough, since stuffing adds at least one byte (`stuffedLengthBounds`). -/
theorem codecRoundTrip : Obligations.CodecRoundTrip := by
  refine ⟨fun _ _ => cobsDecode_cobsEncode, fun _ => rfl, fun s limit h => ?_⟩
  by_cases hs : s = []
  · subst hs; rfl
  · obtain ⟨-, -, -, hbounds⟩ := stuffedLengthBounds
    exact cobsDecode_cobsEncode ((hbounds s hs).1.trans h)

/-! ### How much unstuffing shortens (R127) -/

/-- A block that reaches past the input is refused before the room for it is looked at (R122). -/
theorem unstuff_srcTooShort {c : Byte} {rest : List Byte} (limit fuel : Nat) (out : List Byte) (phantom : Bool)
    (hc : c ≠ 0) (h : rest.length + 1 < c.toNat) :
    unstuff limit (fuel + 1) (c :: rest) out phantom = .error .eDecSrcTooShort := by
  simp only [unstuff, if_neg hc, if_pos h]

/-- A block gives at most as many bytes as it takes, so room for the rest of the input is kept from block to block. -/
theorem unstuff_ne_dstTooShort (limit fuel : Nat) (rest out : List Byte) (phantom : Bool)
    (h : out.length + rest.length ≤ limit) :
    unstuff limit fuel rest out phantom ≠ .error .eDecDstTooShort := by
  induction fuel generalizing rest out phantom with
  | zero => rw [unstuff_fuel_zero]; nofun
  | succ fuel ih =>
    cases rest with
    | nil => simp
    | cons c rest =>
      rw [List.length_cons] at h
      rcases unstuff_cases limit fuel c rest out phantom with
        ⟨-, hu⟩ | ⟨-, hu⟩ | ⟨hc, hroom, -⟩ | ⟨hc, hr, hl, hu⟩ | ⟨hc, hr, hl, hu⟩
      · simp [hu]
      · simp [hu]
      · have h0 : c ≠ 0 := by rintro rfl; simp at hc
        rw [unstuff_srcTooShort limit fuel out phantom h0 (by omega)]
        nofun
      · rw [hu]; exact ih _ _ _ (by simp; omega)
      · rw [hu]; exact ih _ _ _ (by simp; omega)

/-- A pass of a successful run leaves one byte less of output and input together, or a phantom zero to take off. -/
theorem unstuff_cons_ok {limit fuel : Nat} {c : Byte} {rest out r : List Byte} {phantom : Bool}
    (h : unstuff limit (fuel + 1) (c :: rest) out phantom = .ok r) :
    ∃ (rest' out' : List Byte) (phantom' : Bool), phantom'.toNat ≤ out'.length ∧
      out'.length + rest'.length = out.length + rest.length + phantom'.toNat ∧
      unstuff limit fuel rest' out' phantom' = .ok r := by
  rcases unstuff_cases limit fuel c rest out phantom with
    ⟨-, hu⟩ | ⟨-, hu⟩ | ⟨-, -, hu⟩ | ⟨hc, hr, -, hu⟩ | ⟨hc, hr, -, hu⟩ <;> rw [hu] at h
  · cases h
  · cases h
  · cases h
  · exact ⟨_, _, true, by simp; omega, by simp; omega, h⟩
  · exact ⟨_, _, false, by simp, by simp; omega, h⟩

/-- Where the loop ends, a phantom zero is taken off the output. -/
theorem unstuffed_length {out : List Byte} {phantom : Bool} (hp : phantom.toNat ≤ out.length) :
    (if phantom then out.dropLast else out).length + phantom.toNat = out.length := by
  cases phantom with
  | false => rfl
  | true => simp at hp ⊢; omega

/-- The result is no longer than output and input together, a phantom zero taken off. -/
theorem unstuff_length_le {limit fuel : Nat} {rest out r : List Byte} {phantom : Bool}
    (hp : phantom.toNat ≤ out.length) (h : unstuff limit fuel rest out phantom = .ok r) :
    r.length + phantom.toNat ≤ out.length + rest.length := by
  induction fuel generalizing rest out phantom with
  | zero =>
    rw [unstuff_fuel_zero] at h
    obtain rfl := Except.ok.inj h
    rw [unstuffed_length hp]
    exact Nat.le_add_right ..
  | succ fuel ih =>
    cases rest with
    | nil =>
      rw [unstuff_nil] at h
      obtain rfl := Except.ok.inj h
      exact (unstuffed_length hp).le
    | cons c rest =>
      obtain ⟨rest', out', phantom', hp', hlen, h'⟩ := unstuff_cons_ok h
      have hr := ih hp' h'
      have hone := phantom.toNat_le
      rw [List.length_cons]
      omega

/-- Settles O33: the first block of a non-empty input already costs a byte. -/
theorem unstuffingBound : Obligations.UnstuffingBound := by
  refine fun s limit => ⟨fun h => unstuff_ne_dstTooShort limit _ s [] false (by simpa using h), fun out h hs => ?_⟩
  cases s with
  | nil => exact absurd rfl hs
  | cons c rest =>
    obtain ⟨rest', out', phantom', hp', hlen, h'⟩ := unstuff_cons_ok h
    have hr := unstuff_length_le hp' h'
    rw [List.length_nil] at hlen
    rw [List.length_cons]
    omega

end Sys2Proof.Machine
end

section
/-! PROOFS. The commands ENCODE and DECODE: their completion records. -/

namespace Sys2Proof.Machine

/-! ### ENCODE (R121) -/

/-- The record of a success is made on the state before the operand was read, the draws of that reading apart. -/
theorem succeed_afterOperand {out : List Byte} (s : State) (h : out.length < 2 ^ 32) :
    ∃ (m : Memory) (len : Word), succeed out (afterOperand s) = s.recorded s.operandDraws .eNone 0 len m ∧
      len.toNat = out.length ∧ m.holds out :=
  succeed_recorded out (afterOperand s) h

theorem exec_encode_empty {s : State} (h : s.srcLen = 0) : exec .encode s = .next (succeed [] (afterOperand s)) :=
  if_pos h

theorem exec_encode_small {s : State} (h : s.srcLen ≠ 0) (hl : s.dstLimit.toNat < encodedCapacity s.srcLen.toNat) :
    exec .encode s = .next (complete .eEncDstTooSmall 0 (afterOperand s)) :=
  (if_neg h).trans (if_pos hl)

theorem exec_encode_fits {s : State} (h : s.srcLen ≠ 0) (hl : encodedCapacity s.srcLen.toNat ≤ s.dstLimit.toNat) :
    exec .encode s = .next (succeed (cobsEncode (operand s)) (afterOperand s)) :=
  (if_neg h).trans (if_neg (Nat.not_lt.2 hl))

/-- Settles O20: by the three branches of R121; the capacity that was checked bounds the stuffed length. -/
theorem encodeCompletes : Obligations.EncodeCompletes := by
  refine ⟨decode_encode .encode, fun s => ⟨fun h => ?_, fun h hl => ?_, fun h hl => ?_⟩⟩
  · obtain ⟨m, len, hs, hlen, hm⟩ := succeed_afterOperand (out := []) s (by decide)
    obtain rfl : len = 0 := BitVec.eq_of_toNat_eq hlen
    exact ⟨m, by rw [exec_encode_empty h, hs], hm⟩
  · rw [exec_encode_small h hl, complete_keeps 0 (afterOperand s) rfl]
    rfl
  · have hcap := cobsEncode_length_le (operand s)
    rw [operand_length] at hcap
    have hlen : (cobsEncode (operand s)).length < 2 ^ 32 := (hcap.trans hl).trans_lt s.dstLimit.isLt
    obtain ⟨m, len, hs, hm⟩ := succeed_afterOperand s hlen
    exact ⟨m, len, by rw [exec_encode_fits h hl, hs], hm⟩

/-! ### DECODE (R123) -/

/-- Every error of the codec leaves DST unwritten (R75). -/
theorem complete_codecError {e : ErrCode} (he : e ∈ codecErrors) (info : Word) (s : State) :
    complete e info s = s.recorded s.draws e info 0 [] :=
  have ⟨hnone, hclears⟩ : e ≠ .eNone ∧ e.keepsDst = false :=
    (show ∀ e ∈ codecErrors, e ≠ .eNone ∧ e.keepsDst = false by decide) e he
  complete_clears info s hnone hclears

theorem exec_decode {s : State} {r : Except ErrCode (List Byte)}
    (h : cobsDecode (operand s) s.dstLimit.toNat = r) : exec .decode s = .next (finish r (afterOperand s)) :=
  h ▸ rfl

/-- Settles O21: by the result of unstuffing, which is bounded by DST_LIMIT or an error of the codec. -/
theorem decodeCompletes : Obligations.DecodeCompletes := by
  refine ⟨decode_encode .decode, fun s => ?_⟩
  rcases cobsDecode_result (operand s) s.dstLimit.toNat with ⟨r, hr, hfits⟩ | ⟨e, he, hr⟩
  · refine ⟨fun out h => ?_, fun e h => nomatch hr.symm.trans h⟩
    obtain rfl := Except.ok.inj (hr.symm.trans h)
    obtain ⟨m, len, hs, hlen, hm⟩ := succeed_afterOperand s (hfits.trans_lt s.dstLimit.isLt)
    exact ⟨m, len, by rw [exec_decode h, finish, hs], hlen, hfits, hm⟩
  · refine ⟨fun out h => (nomatch hr.symm.trans h), fun e' h => ?_⟩
    obtain rfl := Except.error.inj (hr.symm.trans h)
    exact ⟨he, [], by rw [exec_decode h, finish, complete_codecError he]; rfl, Memory.holds_nil⟩

end Sys2Proof.Machine
end

section
/-! PROOFS. The laws of Checksum16 and the completion record of the command CHECKSUM. -/

namespace Sys2Proof.Machine

/-! ### The laws of the two sums (R152) -/

/-- One byte's update on residues: the running sum takes the byte, and the weighted sum takes the new running sum. -/
theorem sumStep_mod (a b : Nat) (v : Byte) :
    sumStep (a % 255, b % 255) v = ((a + v.toNat) % 255, (b + (a + v.toNat)) % 255) := by
  simp [sumStep]

/-- The sums so far count once in every later running sum, so the weighted sum takes them once for each byte. -/
theorem foldl_sumStep_mod (s : List Byte) (a b : Nat) : s.foldl sumStep (a % 255, b % 255) =
    ((a + (s.map BitVec.toNat).sum) % 255, (b + s.length * a + weightedSum s) % 255) := by
  induction s generalizing a b with
  | nil => simp [weightedSum]
  | cons v vs ih =>
    have hweighted : b + (a + v.toNat) + vs.length * (a + v.toNat) + weightedSum vs =
        b + (vs.length + 1) * a + ((vs.length + 1) * v.toNat + weightedSum vs) := by ring
    rw [List.foldl_cons, sumStep_mod, ih, hweighted, Nat.add_assoc]
    rfl

theorem sums_eq (s : List Byte) : sums s = ((s.map BitVec.toNat).sum % 255, weightedSum s % 255) := by
  simpa [sums] using foldl_sumStep_mod s 0 0

theorem sums_lt (s : List Byte) : (sums s).1 < 255 ∧ (sums s).2 < 255 := by
  rw [sums_eq]
  exact ⟨Nat.mod_lt _ (by decide), Nat.mod_lt _ (by decide)⟩

/-- 0x00 and 0xFF are the same residue mod 255. -/
theorem sumStep_zero_eq_sumStep_ff (ab : Nat × Nat) : sumStep ab 0x00 = sumStep ab 0xFF := by
  have hsame : (ab.1 + (0x00 : Byte).toNat) % 255 = (ab.1 + (0xFF : Byte).toNat) % 255 :=
    (Nat.add_mod_right ab.1 255).symm
  rw [sumStep, hsame, sumStep]

theorem sums_zero_or_ff (s t : List Byte) : sums (s ++ 0x00 :: t) = sums (s ++ 0xFF :: t) := by
  rw [sums_append, sums_append, List.foldl_cons, List.foldl_cons, sumStep_zero_eq_sumStep_ff]

theorem sums_cons_zero (s : List Byte) : sums (0x00 :: s) = sums s := rfl

theorem toNat_le_of_mem_checksum16 {s : List Byte} {b : Byte} (h : b ∈ checksum16 s) : b.toNat ≤ 0xFE := by
  obtain ⟨ha, hb⟩ := sums_lt s
  rw [checksum16, List.mem_pair] at h
  rcases h with rfl | rfl
  · rw [BitVec.toNat_ofNat]; omega
  · rw [BitVec.toNat_ofNat]; omega

/-- Settles O34: the laws of the two sums, carried over to the two bytes made of them. -/
theorem checksumLaws : Obligations.ChecksumLaws := by
  refine ⟨fun s => ?_, fun s t => ?_, fun s => ?_, fun s b => toNat_le_of_mem_checksum16⟩
  · rw [checksum16, sums_eq]
  · rw [checksum16, sums_zero_or_ff, checksum16]
  · rw [checksum16, sums_cons_zero, checksum16]

/-! ### CHECKSUM (R151) -/

theorem exec_checksum (s : State) :
    exec .checksum s = .next (succeed (checksum16 (operand s)) (afterOperand s)) := rfl

/-- Settles O22: the command always succeeds, with the two checksum bytes put out. -/
theorem checksumCompletes : Obligations.ChecksumCompletes := by
  refine ⟨decode_encode .checksum, fun s => ?_⟩
  have hfits : (checksum16 (operand s)).length < 2 ^ 32 := by rw [checksum16_length]; decide
  obtain ⟨m, len, hs, hlen, hm⟩ := succeed_afterOperand s hfits
  obtain rfl : len = 2 := BitVec.eq_of_toNat_eq hlen
  exact ⟨m, by rw [exec_checksum, hs], hm⟩

end Sys2Proof.Machine
end

section
/-! PROOFS. Frames: what `frame_decode` accepts, the round trip and the lengths, and the records of the two frame commands. -/

namespace Sys2Proof.Machine

/-! ### Verifying a frame (R163) -/

/-- The verifier accepts exactly the Frames of R97, and gives their payload. -/
theorem verifyFrame_eq_ok_iff (f p : List Byte) : verifyFrame f = .ok p ↔ f = frameOf p := by
  constructor
  · intro h
    simp only [verifyFrame] at h
    split at h
    · cases h
    · split at h
      · cases h
      · rename_i hsum
        obtain rfl := Except.ok.inj h
        rw [frameOf, not_not.1 hsum, List.take_append_drop]
  · rintro rfl
    simp [verifyFrame, frameOf]

theorem verifyFrame_mismatch {p c : List Byte} (hc : c.length = 2) (h : checksum16 p ≠ c) :
    verifyFrame (p ++ c) = .error .eChecksumMismatch := by
  simp [verifyFrame, hc, h]

theorem verifyFrame_error_mem {f : List Byte} {e : ErrCode} (h : verifyFrame f = .error e) :
    e ∈ [.eMsgTooShort, .eChecksumMismatch] := by
  simp only [verifyFrame] at h
  split at h
  · cases h; decide
  · split at h
    · cases h; decide
    · cases h

theorem frameDecode_of_unstuffed {s f : List Byte} (h : cobsDecode s s.length = .ok f) :
    frameDecode s = verifyFrame f := by
  rw [frameDecode, h]

theorem frameDecode_of_codecError {s : List Byte} {e : ErrCode} (h : cobsDecode s s.length = .error e) :
    frameDecode s = .error e := by
  rw [frameDecode, h]

/-- A decoded frame was unstuffed to the Frame of its payload. -/
theorem cobsDecode_of_frameDecode_ok {s p : List Byte} (h : frameDecode s = .ok p) :
    cobsDecode s s.length = .ok (frameOf p) := by
  cases hu : cobsDecode s s.length with
  | error e => rw [frameDecode_of_codecError hu] at h; cases h
  | ok f =>
    rw [frameDecode_of_unstuffed hu] at h
    rw [(verifyFrame_eq_ok_iff f p).1 h]

/-- The errors of R163: the capacity len(s) is always enough (R165), so two of the codec's three are left. -/
theorem frameDecode_error_mem {s : List Byte} {e : ErrCode} (h : frameDecode s = .error e) :
    e ∈ [.eDecZeroCode, .eDecSrcTooShort, .eMsgTooShort, .eChecksumMismatch] := by
  rcases cobsDecode_result s s.length with ⟨f, hu, -⟩ | ⟨e', he, hu⟩
  · rw [frameDecode_of_unstuffed hu] at h
    exact List.mem_append_right [.eDecZeroCode, .eDecSrcTooShort] (verifyFrame_error_mem h)
  · rw [frameDecode_of_codecError hu] at h
    obtain rfl := Except.error.inj h
    have hroom : e' ≠ .eDecDstTooShort := fun h' => (unstuffingBound s s.length).1 (Nat.le_refl _) (h' ▸ hu)
    simp only [codecErrors, List.mem_cons, List.not_mem_nil, or_false] at he ⊢
    tauto

/-! ### The laws of R162, R166 and R167 -/

theorem frameOf_ne_nil (p : List Byte) : frameOf p ≠ [] := by
  simp [frameOf, checksum16]

/-- Settles O35: a Frame is two bytes longer than its payload, and the capacity is monotone in the length. -/
theorem frameLengthFits : Obligations.FrameLengthFits := by
  intro p
  obtain ⟨-, -, -, hbounds⟩ := stuffedLengthBounds
  obtain ⟨hlow, hhigh⟩ := hbounds (frameOf p) (frameOf_ne_nil p)
  rw [frameOf_length] at hlow hhigh
  refine ⟨hlow, hhigh, fun par hvalid hp => ?_⟩
  obtain ⟨-, -, -, ⟨hcap, -⟩, -⟩ := (valid_iff par).1 hvalid
  rw [frameEncode]
  omega

/-- Settles O36: unstuffing gives the payload's Frame and takes at least one byte off (`unstuffingBound`). -/
theorem payloadBound : Obligations.PayloadBound := by
  intro s p h
  have hu := cobsDecode_of_frameDecode_ok h
  have hs : s ≠ [] := by
    rintro rfl
    exact frameOf_ne_nil p (Except.ok.inj hu).symm
  have hlen := (unstuffingBound s s.length).2 _ hu hs
  have hpos := List.length_pos_of_ne_nil hs
  rw [frameOf_length] at hlen
  exact ⟨hs, by omega⟩

/-- Settles O37: the codec gives the Frame back (`codecRoundTrip`), and the verifier accepts it. -/
theorem frameRoundTrip : Obligations.FrameRoundTrip := by
  intro p
  obtain ⟨-, -, hback⟩ := codecRoundTrip
  exact (frameDecode_of_unstuffed (hback (frameOf p) _ (Nat.le_refl _))).trans ((verifyFrame_eq_ok_iff _ p).2 rfl)

/-! ### ENCODE_FRAME and DECODE_FRAME (R161, R164) -/

theorem exec_encodeFrame (s : State) :
    exec .encodeFrame s = .next (succeed (frameEncode (operand s)) (afterOperand s)) := rfl

theorem exec_decodeFrame {s : State} {r : Except ErrCode (List Byte)} (h : frameDecode (operand s) = r) :
    exec .decodeFrame s = .next (finish r (afterOperand s)) :=
  h ▸ rfl

/-- Settles O23: the command always succeeds, and `frameLengthFits` gives the room. -/
theorem encodeFrameCompletes : Obligations.EncodeFrameCompletes := by
  refine ⟨decode_encode .encodeFrame, fun s hvalid hsrc => ?_⟩
  obtain ⟨-, -, hfits⟩ := frameLengthFits (operand s)
  have hcap := hfits s.params hvalid (by rwa [operand_length])
  obtain ⟨-, -, -, ⟨-, -, -, hword⟩, -⟩ := (valid_iff s.params).1 hvalid
  obtain ⟨m, len, hs, hlen, hm⟩ := succeed_afterOperand (out := frameEncode (operand s)) s (by omega)
  exact ⟨m, len, by rw [exec_encodeFrame, hs], hlen, hlen ▸ hcap, hm⟩

/-- Every error of a frame leaves DST unwritten (R75). -/
theorem complete_frameError {e : ErrCode} (he : e ∈ frameErrors) (info : Word) (s : State) :
    complete e info s = s.recorded s.draws e info 0 [] :=
  have ⟨hnone, hclears⟩ : e ≠ .eNone ∧ e.keepsDst = false :=
    (show ∀ e ∈ frameErrors, e ≠ .eNone ∧ e.keepsDst = false by decide) e he
  complete_clears info s hnone hclears

/-- Settles O24: a payload is shorter than the operand (`payloadBound`), and the errors are those of R163. -/
theorem decodeFrameCompletes : Obligations.DecodeFrameCompletes := by
  refine ⟨decode_encode .decodeFrame, fun s => ⟨fun p h => ?_, fun e h => ?_⟩⟩
  · obtain ⟨-, hbound⟩ := payloadBound _ _ h
    rw [operand_length] at hbound
    have hp : p.length ≤ s.srcLen.toNat := by omega
    obtain ⟨m, len, hs, hlen, hm⟩ := succeed_afterOperand s (hp.trans_lt s.srcLen.isLt)
    exact ⟨m, len, by rw [exec_decodeFrame h, finish, hs], hlen, hp, hm⟩
  · have he := frameDecode_error_mem h
    have hframe : e ∈ frameErrors :=
      (show [.eDecZeroCode, .eDecSrcTooShort, .eMsgTooShort, .eChecksumMismatch] ⊆ frameErrors by decide) he
    exact ⟨he, [], by rw [exec_decodeFrame h, finish, complete_frameError hframe]; rfl, Memory.holds_nil⟩

end Sys2Proof.Machine
end

section
/-! PROOFS. Tampering with a stuffed frame (R168, case 1): a changed data byte leaves the block structure as it was. -/

namespace Sys2Proof.Machine

/-! ### Blocks and the bytes they stand for (R95) -/

/-- The zero that a block of `n` data bytes ends with, a block of code 0xFF apart. -/
def impliedZero (n : Nat) : List Byte := if n < 254 then [0] else []

/-- The blocks `bs` stand for the bytes `ds`: the last block's implied zero is the phantom one and is left out. -/
inductive StandsFor : List Byte → List Byte → Prop where
  | last (run : List Byte) (h : run.length ≤ 253) : StandsFor (block run) run
  | cons (run : List Byte) {bs ds : List Byte} (h : run.length ≤ 254) (hb : StandsFor bs ds) :
      StandsFor (block run ++ bs) (run ++ (impliedZero run.length ++ ds))

theorem stuff_standsFor (run vs : List Byte) (h : run.length ≤ 253) : StandsFor (stuff run vs) (run ++ vs) := by
  refine stuff_induct (P := fun run vs => StandsFor (stuff run vs) (run ++ vs)) ?last ?zero ?full ?more run vs h
  case last =>
    intro run h
    simpa using StandsFor.last run h
  case zero =>
    intro run vs h ih
    have hzero : impliedZero run.length = [0] := if_pos (by omega)
    rw [stuff_zero]
    simpa [hzero] using StandsFor.cons run (by omega) ih
  case full =>
    intro run v vs h hv ih
    have hrun : (run ++ [v]).length = 254 := by simp [h]
    have hzero : impliedZero (run ++ [v]).length = [] := if_neg (by omega)
    have hcons := StandsFor.cons (run ++ [v]) (by omega) ih
    rw [hzero] at hcons
    simpa [stuff_full vs h hv] using hcons
  case more =>
    intro run v vs h hv ih
    simpa [stuff_more vs h hv] using ih

theorem frameEncode_standsFor (p : List Byte) : StandsFor (frameEncode p) (frameOf p) := by
  rw [frameEncode, cobsEncode_eq_stuff (frameOf_ne_nil p)]
  exact stuff_standsFor [] (frameOf p) (Nat.zero_le _)

/-! ### Unstuffing blocks -/

theorem impliedZero_length_le (n : Nat) : (impliedZero n).length ≤ 1 := by
  unfold impliedZero
  split <;> simp

theorem StandsFor.length_lt {bs ds : List Byte} (h : StandsFor bs ds) : ds.length < bs.length := by
  induction h with
  | last run h => simp
  | cons run h hb ih =>
    have hzero := impliedZero_length_le run.length
    simp only [List.length_append, block_length]
    omega

/-- A block adds its data bytes and its implied zero to the output. -/
theorem unstuff_block_append {limit fuel : Nat} {run rest out : List Byte} (phantom : Bool) (hr : run.length ≤ 254)
    (hl : out.length + run.length + 1 ≤ limit) :
    ∃ phantom', unstuff limit (fuel + 1) (block run ++ rest) out phantom =
      unstuff limit fuel rest (out ++ (run ++ impliedZero run.length)) phantom' := by
  rcases Nat.lt_or_eq_of_le hr with hr | hr
  · exact ⟨true, by rw [unstuff_block phantom (by omega) hl, impliedZero, if_pos hr, List.append_assoc]⟩
  · exact ⟨false, by rw [unstuff_boundary phantom hr (by omega), impliedZero, if_neg (by omega), List.append_nil]⟩

/-- With fuel and room enough, unstuffing adds the bytes that the blocks stand for to the output. -/
theorem StandsFor.unstuff_eq {bs ds : List Byte} (h : StandsFor bs ds) {limit fuel : Nat} (out : List Byte)
    (phantom : Bool) (hf : bs.length ≤ fuel) (hl : out.length + bs.length ≤ limit) :
    unstuff limit fuel bs out phantom = .ok (out ++ ds) := by
  induction h generalizing fuel out phantom with
  | last run h =>
    obtain _ | fuel := fuel
    · simp at hf
    · rw [block_length] at hl
      rw [← List.append_nil (block run), unstuff_block phantom h (by omega), unstuff_nil]
      simp
  | @cons run bs ds h hb ih =>
    simp only [List.length_append, block_length] at hf hl
    obtain _ | fuel := fuel
    · omega
    · have hroom : out.length + run.length + 1 ≤ limit := by omega
      obtain ⟨phantom', hu⟩ := unstuff_block_append (fuel := fuel) (rest := bs) phantom h hroom
      have hzero := impliedZero_length_le run.length
      rw [hu, ih _ phantom' (by omega) (by simp only [List.length_append]; omega)]
      simp

theorem StandsFor.frameDecode_eq {bs ds : List Byte} (h : StandsFor bs ds) : frameDecode bs = verifyFrame ds :=
  frameDecode_of_unstuffed (h.unstuff_eq [] false (Nat.le_refl _) (by simp))

/-! ### Changing a data byte -/

/-- A code byte of a block and more blocks is the block's own or one of the others'. -/
theorem codeByteAt_block_append (fuel : Nat) {run : List Byte} (bs : List Byte) (j : Nat) (h : run.length ≤ 254) :
    codeByteAt (fuel + 1) (block run ++ bs) j =
      (j == 0 || (decide (run.length + 1 ≤ j) && codeByteAt fuel bs (j - (run.length + 1)))) := by
  obtain ⟨hcode, -⟩ := block_code h
  simp [block, codeByteAt, hcode]

/-- A data byte of a block and more blocks is one of the block's run or of the others'. -/
theorem dataByte_cases {fuel : Nat} {run bs : List Byte} {j : Nat} (h : run.length ≤ 254)
    (hj : codeByteAt (fuel + 1) (block run ++ bs) j = false) :
    (∃ i, j = i + 1 ∧ i < run.length) ∨ (∃ i, j = (block run).length + i ∧ codeByteAt fuel bs i = false) := by
  simp only [codeByteAt_block_append fuel bs j h, Bool.or_eq_false_iff, beq_eq_false_iff_ne, Bool.and_eq_false_imp,
    decide_eq_true_eq] at hj
  obtain ⟨h0, hrest⟩ := hj
  rcases Nat.lt_or_ge j (run.length + 1) with hlt | hge
  · exact .inl ⟨j - 1, by omega, by omega⟩
  · exact .inr ⟨j - (run.length + 1), by rw [block_length]; omega, hrest hge⟩

theorem block_set (run : List Byte) (i : Nat) (v : Byte) : (block run).set (i + 1) v = block (run.set i v) := by
  simp [block]

/-- Changing a data byte of the blocks changes one of the bytes they stand for, and nothing else. -/
theorem StandsFor.set {bs ds : List Byte} (h : StandsFor bs ds) (v : Byte) {fuel j : Nat} (hf : bs.length ≤ fuel)
    (hj : j < bs.length) (hdata : codeByteAt fuel bs j = false) :
    ∃ k, ds[k]? = bs[j]? ∧ StandsFor (bs.set j v) (ds.set k v) := by
  induction h generalizing fuel j with
  | last run h =>
    obtain _ | fuel := fuel
    · simp at hf
    · rw [block_length] at hj
      rw [← List.append_nil (block run)] at hdata
      rcases dataByte_cases (by omega) hdata with ⟨i, rfl, hi⟩ | ⟨i, rfl, -⟩
      · rw [block_set]
        exact ⟨i, by simp [block], .last (run.set i v) (by simpa using h)⟩
      · rw [block_length] at hj; omega
  | @cons run bs ds h hb ih =>
    rw [List.length_append] at hf hj
    obtain _ | fuel := fuel
    · rw [block_length] at hf; omega
    · rcases dataByte_cases h hdata with ⟨i, rfl, hi⟩ | ⟨i, rfl, hi⟩
      · have hset := StandsFor.cons (run.set i v) (by simpa using h) hb
        rw [List.length_set] at hset
        rw [List.set_append_left _ _ (by simpa using hi), block_set]
        exact ⟨i, by simp [block, hi, List.getElem?_append], by rwa [List.set_append_left _ _ hi]⟩
      · obtain ⟨k, hk, hset⟩ := ih (by rw [block_length] at hf; omega) (by omega) hi
        refine ⟨run.length + ((impliedZero run.length).length + k), ?_, ?_⟩
        · simp [List.getElem?_append, hk, -block_length]
        · simpa [List.set_append, -block_length] using StandsFor.cons run h hset

/-! ### The checksum of a tampered frame -/

/-- The running sum sees a changed byte, residues mod 255 apart. -/
theorem mod_eq_of_checksum16_eq {xs ys : List Byte} {v w : Byte}
    (h : checksum16 (xs ++ v :: ys) = checksum16 (xs ++ w :: ys)) : v.toNat % 255 = w.toNat % 255 := by
  have hbyte : BitVec.ofNat 8 (sums (xs ++ v :: ys)).1 = BitVec.ofNat 8 (sums (xs ++ w :: ys)).1 :=
    (List.cons.inj h).1
  have hsum := congrArg BitVec.toNat hbyte
  simp only [BitVec.toNat_ofNat, sums_eq, List.map_append, List.map_cons, List.sum_append, List.sum_cons] at hsum
  omega

/-- 0x00 and 0xFF are the only two bytes of one residue. -/
theorem eq_of_mod_eq {v w : Byte} (hv : v ≠ w) (hw : w ≠ 0) (h : v.toNat % 255 = w.toNat % 255) :
    w = 0xFF ∧ v = 0x00 := by
  bv_omega

/-- A changed payload byte is detected, a 0xFF changed to 0x00 apart. -/
theorem verifyFrame_payload_changed {xs ys : List Byte} {v w : Byte} (hv : v ≠ w) (hw : w ≠ 0)
    (h : ¬(w = 0xFF ∧ v = 0x00)) :
    verifyFrame (xs ++ v :: ys ++ checksum16 (xs ++ w :: ys)) = .error .eChecksumMismatch :=
  verifyFrame_mismatch (checksum16_length _) fun hsum => h (eq_of_mod_eq hv hw (mod_eq_of_checksum16_eq hsum))

/-- A payload byte 0xFF changed to 0x00 goes unseen (R152). -/
theorem verifyFrame_ff_zeroed (xs ys : List Byte) :
    verifyFrame (xs ++ 0x00 :: ys ++ checksum16 (xs ++ 0xFF :: ys)) = .ok (xs ++ 0x00 :: ys) := by
  obtain ⟨-, hsame, -⟩ := checksumLaws
  rw [verifyFrame_eq_ok_iff, frameOf, hsame]

theorem verifyFrame_trailer_changed {p : List Byte} {i : Nat} {v w : Byte} (hw : (checksum16 p)[i]? = some w)
    (hv : v ≠ w) : verifyFrame (p ++ (checksum16 p).set i v) = .error .eChecksumMismatch := by
  refine verifyFrame_mismatch (by simp) fun hsum => ?_
  obtain ⟨hi, -⟩ := List.getElem?_eq_some_iff.1 hw
  rw [hsum, List.getElem?_set_self hi] at hw
  exact hv (Option.some.inj hw)

/-- A byte of a Frame is one of the payload's, or one of the trailer's, which are never 0xFF (R152). -/
theorem frameOf_getElem?_cases {p : List Byte} {k : Nat} {w : Byte} (h : (frameOf p)[k]? = some w) :
    (∃ xs ys, p = xs ++ w :: ys ∧ k = xs.length) ∨
    (∃ i, k = p.length + i ∧ (checksum16 p)[i]? = some w ∧ w ≠ 0xFF) := by
  rw [frameOf] at h
  rcases Nat.lt_or_ge k p.length with hk | hk
  · rw [List.getElem?_append_left hk, List.getElem?_eq_getElem hk] at h
    obtain rfl := Option.some.inj h
    exact .inl ⟨p.take k, p.drop (k + 1), by simp, by simp; omega⟩
  · rw [List.getElem?_append_right hk] at h
    refine .inr ⟨k - p.length, by omega, h, ?_⟩
    rintro rfl
    exact absurd (toNat_le_of_mem_checksum16 (List.mem_of_getElem? h)) (by decide)

/-- Settles O38: the changed data byte is one changed byte of the Frame (`StandsFor.set`), of its payload or its trailer. -/
theorem tamperedDataByteDetected : Obligations.TamperedDataByteDetected := by
  intro p j v hj hdata
  obtain ⟨w, hget⟩ : ∃ w, (frameEncode p)[j]? = some w := ⟨_, List.getElem?_eq_getElem hj⟩
  have hgetD : (frameEncode p).getD j 0 = w := by rw [List.getD_eq_getElem?_getD, hget, Option.getD_some]
  obtain ⟨k, hk, hset⟩ := (frameEncode_standsFor p).set v (Nat.le_refl _) hj hdata
  have hw : w ≠ 0 := by
    rintro rfl
    exact (stuffedOutputIsBlocks (frameOf p)).1 (List.mem_of_getElem? hget)
  rw [hgetD, hset.frameDecode_eq]
  intro hv
  rcases frameOf_getElem?_cases (hk.trans hget) with ⟨xs, ys, rfl, rfl⟩ | ⟨i, rfl, hi, hff⟩
  · have hframe : (frameOf (xs ++ w :: ys)).set xs.length v = xs ++ v :: ys ++ checksum16 (xs ++ w :: ys) := by
      simp [frameOf]
    rw [hframe]
    refine ⟨verifyFrame_payload_changed hv hw, ?_⟩
    rintro rfl rfl
    exact ⟨xs ++ 0x00 :: ys, by simp, verifyFrame_ff_zeroed xs ys⟩
  · have hframe : (frameOf p).set (p.length + i) v = p ++ (checksum16 p).set i v := by
      simp [frameOf]
    rw [hframe]
    exact ⟨fun _ => verifyFrame_trailer_changed hi hv, fun h => absurd h hff⟩

end Sys2Proof.Machine
end

section
/-! PROOFS. The frame commands through the buffers: the host's turns that run a command and that load SRC, and the round trip. -/

namespace Sys2Proof.Machine

/-! ### Host programs, a statement at a time (R100, R101) -/

/-- The operand is what the host wrote into SRC. -/
theorem operand_eq_of_byteAt {s : State} {p : List Byte} (hlen : s.srcLen.toNat = p.length)
    (h : ∀ i, i < p.length → s.src.byteAt i = p[i]?) : operand s = p := by
  refine List.ext_getElem? fun i => ?_
  rcases Nat.lt_or_ge i p.length with hi | hi
  · have hp : p[i]? = some p[i] := List.getElem?_eq_getElem hi
    obtain ⟨-, hread⟩ := operandIsSrcBytes s
    rw [hp, (hread i (hlen ▸ hi)).1 p[i] ((h i hi).trans hp)]
  · rw [List.getElem?_eq_none hi, List.getElem?_eq_none (by rwa [operand_length, hlen])]

/-- A CMD write and its EXEC turn run the command from the accepted state (R25, R91). -/
theorem run_command {s t : State} {i : Instr} {rest : List Turn}
    (ha : s.agenda = wrTurn .cmd (encode i) :: .core .exec :: rest) (hb : s.status.busy = false)
    (ht : exec i (acceptCommand (encode i) { s with agenda := rest }) = .next t) (k : Nat) :
    Sys2Proof.core.run (k + 2) s = Sys2Proof.core.run k t := by
  have hwrite : step s = .next (acceptCommand (encode i) { s with agenda := .core .exec :: rest }) := by
    rw [step_host ha]
    exact congrArg _ (regWrite_offset .cmd (encode i) hb)
  have hexec : step (acceptCommand (encode i) { s with agenda := .core .exec :: rest }) = .next t := by
    rw [step_of_agenda rfl, ← ht]
    exact coreStep_exec rfl (decode_encode i)
  rw [run_succ_of_step hwrite, run_succ_of_step hexec]

theorem run_wsrcTurns {s : State} {i : Nat} {bs : List Byte} {rest : List Turn} (ha : s.agenda = wsrcTurns i bs ++ rest)
    (hb : s.status.busy = false) (hi : i + bs.length ≤ s.params.srcCap) (k : Nat) :
    Sys2Proof.core.run (k + bs.length) s = Sys2Proof.core.run k { s with agenda := rest, src := s.src.putAll i bs } := by
  induction bs generalizing s i with
  | nil =>
    obtain rfl : s.agenda = rest := ha
    rfl
  | cons b bs ih =>
    rw [List.length_cons] at hi
    have hwrite : step s = .next { s with agenda := wsrcTurns (i + 1) bs ++ rest, src := s.src.put i b } := by
      rw [step_host ha]
      exact congrArg _ (srcWrite_of_lt b hb (by simp only; omega))
    rw [List.length_cons, ← Nat.add_assoc, run_succ_of_step hwrite]
    exact ih rfl hb (by simp only; omega)

/-- The turns of `load`: the bytes go to SRC from index 0 on, and SRC_LEN takes their number. -/
theorem run_load {s : State} {bs : List Byte} {rest : List Turn}
    (ha : s.agenda = wsrcTurns 0 bs ++ wrTurn .srcLen (BitVec.ofNat 32 bs.length) :: rest)
    (hb : s.status.busy = false) (hcap : bs.length ≤ s.params.srcCap) (k : Nat) :
    Sys2Proof.core.run (k + 1 + bs.length) s = Sys2Proof.core.run k { s with
      agenda := rest, src := s.src.putAll 0 bs, srcLen := BitVec.ofNat 32 bs.length } := by
  have hclamp : clampTo s.params.srcCap (BitVec.ofNat 32 bs.length) = BitVec.ofNat 32 bs.length :=
    if_pos ((BitVec.toNat_ofNat ..).trans_le ((Nat.mod_le ..).trans hcap))
  rw [run_wsrcTurns ha hb (by omega), run_succ_of_step (step_host rfl)]
  have hstore := regWrite_offset .srcLen (BitVec.ofNat 32 bs.length)
    (s := { s with agenda := rest, src := s.src.putAll 0 bs }) hb
  rw [hostStep, hstore, Reg.store, hclamp]

/-! ### The two commands on a given operand -/

/-- An ENCODE_FRAME whose payload stands in SRC (R161). -/
theorem run_encodeFrame {s : State} {p : List Byte} {rest : List Turn}
    (ha : s.agenda = wrTurn .cmd (encode .encodeFrame) :: .core .exec :: rest) (hb : s.status.busy = false)
    (hvalid : s.params.valid = true) (hcap : s.srcLen.toNat ≤ s.params.srcCap) (hlen : s.srcLen.toNat = p.length)
    (hsrc : ∀ i, i < p.length → s.src.byteAt i = p[i]?) :
    ∃ u : State, (∀ k, Sys2Proof.core.run (k + 2) s = Sys2Proof.core.run k u) ∧
      u.status = { busy := false, done := true, err := false, errcode := .eNone } ∧
      u.dstLen.toNat = (frameEncode p).length ∧ u.dst.holds (frameEncode p) ∧
      u.agenda = rest ∧ u.params = s.params := by
  obtain ⟨-, hencode⟩ := encodeFrameCompletes
  obtain ⟨m, len, hexec, hl, -, hm⟩ :=
    hencode (acceptCommand (encode .encodeFrame) { s with agenda := rest }) hvalid hcap
  have hop : operand (acceptCommand (encode .encodeFrame) { s with agenda := rest }) = p :=
    operand_eq_of_byteAt hlen hsrc
  rw [hop] at hl hm
  exact ⟨_, run_command ha hb hexec, rfl, hl, hm, rfl, rfl⟩

/-- A DECODE_FRAME whose stuffed frame stands in SRC and is accepted (R164). -/
theorem run_decodeFrame {s : State} {bs p : List Byte} {rest : List Turn}
    (ha : s.agenda = wrTurn .cmd (encode .decodeFrame) :: .core .exec :: rest) (hb : s.status.busy = false)
    (hlen : s.srcLen.toNat = bs.length) (hsrc : ∀ i, i < bs.length → s.src.byteAt i = bs[i]?)
    (hp : frameDecode bs = .ok p) :
    ∃ t : State, (∀ k, Sys2Proof.core.run (k + 2) s = Sys2Proof.core.run k t) ∧
      t.status = { busy := false, done := true, err := false, errcode := .eNone } ∧
      t.dstLen.toNat = p.length ∧ t.dst.holds p := by
  obtain ⟨-, hdecode⟩ := decodeFrameCompletes
  have hop : operand (acceptCommand (encode .decodeFrame) { s with agenda := rest }) = bs :=
    operand_eq_of_byteAt hlen hsrc
  obtain ⟨m, len, hexec, hl, -, hm⟩ :=
    (hdecode (acceptCommand (encode .decodeFrame) { s with agenda := rest })).1 p (hop ▸ hp)
  exact ⟨_, run_command ha hb hexec, rfl, hl, hm⟩

/-- Settles O60: ENCODE_FRAME, the loading of its result and DECODE_FRAME, one after the other, and `frameRoundTrip`. -/
theorem frameRoundTripThroughBuffers : Obligations.FrameRoundTripThroughBuffers := by
  intro s p hinv hphase hlen hsrc hfits ha
  have hvalid := hinv.ranges.params
  obtain ⟨⟨-, hword⟩, -⟩ := (valid_iff _).1 hvalid
  have hframe : (BitVec.ofNat 32 (frameEncode p).length).toNat = (frameEncode p).length := by
    rw [BitVec.toNat_ofNat, Nat.mod_eq_of_lt (by omega)]
  obtain ⟨u, hrun, hstatus, hl, hm, hagenda, hparams⟩ :=
    run_encodeFrame (ha.trans (List.append_assoc ..)) (hinv.record.busy.2 hphase) hvalid hinv.ranges.srcLen hlen hsrc
  have hidle : u.status.busy = false := by rw [hstatus]
  have hload := run_load hagenda hidle (hparams ▸ hfits)
  obtain ⟨t, hrun', hstatus', hl', hm'⟩ := run_decodeFrame (rest := [])
    (s := { u with
      agenda := [wrTurn .cmd (encode .decodeFrame), .core .exec]
      src := u.src.putAll 0 (frameEncode p)
      srcLen := BitVec.ofNat 32 (frameEncode p).length })
    rfl hidle hframe (fun i hi => by simp [Memory.byteAt_putAll, hi]) (frameRoundTrip p)
  refine ⟨u, t, hrun 0, hstatus, hl, hm, ?_, hstatus', hl', hm'⟩
  calc Sys2Proof.core.run (5 + (frameEncode p).length) s
      = Sys2Proof.core.run (0 + 2 + 1 + (frameEncode p).length + 2) s := by congr 1; omega
    _ = Sys2Proof.core.run (0 + 2 + 1 + (frameEncode p).length) u := hrun _
    _ = _ := hload (0 + 2)
    _ = .next t := hrun' 0

end Sys2Proof.Machine
end

section
/-! PROOFS. The steps of an exchange, one by one: the start, the transport's answers, observing, and the deadline. -/

namespace Sys2Proof.Machine

/-! ### X_START (R181 to R183) -/

theorem exec_exchange_whole {s : State} (h : (operand s).getLast? = some 0) :
    exec .exchange s = .next (beginAttempt (latchConfig (latchRequest s))) :=
  if_pos (by simp [requestOk, h])

theorem exec_exchange_malformed {s : State} (h : (operand s).getLast? ≠ some 0) :
    exec .exchange s = .next (complete .eMalformedRequest 0 (latchRequest s)) :=
  if_neg (by simpa [requestOk] using h)

/-- Settles O25: the latches and `begin_attempt()` one after the other, or a completion that keeps DST. -/
theorem exchangeStarts : Obligations.ExchangeStarts := by
  intro s
  refine ⟨fun h => exec_exchange_whole h, fun h => ?_⟩
  rw [exec_exchange_malformed h, complete_keeps 0 (latchRequest s) rfl]
  rfl

/-! ### The transport's answers (R184, R186) -/

theorem step_transport {s : State} {a : TransportStep} {rest : List Turn} (h : s.agenda = .transport a :: rest) :
    step s = .next (transportStep a { s with agenda := rest }) :=
  step_of_agenda h

theorem transportStep_writeDone {s : State} {r : List Byte} {n : Nat} {e : Option TransportError}
    (hp : s.phase = .write) (hw : s.wr = some r) (ha : writeAnswerOk s.params r n e = true) :
    transportStep (.writeDone n e) s = writeDone r n e s := by
  simp only [transportStep, hw, hp, ha, and_self, if_true]

theorem transportStep_readDone {s : State} {r : ReadAnswer} (hp : s.phase = .read) (hr : s.rd = .pending)
    (ha : readAnswerOk s.params r = true) : transportStep (.readDone r) s = readDone r s :=
  if_pos ⟨hp, hr, ha⟩

/-- An error that has a word is one the transport can report. -/
theorem errorKnown_of_get {p : Params} {e : TransportError} {w : Word} (h : p.xerr[e]? = some w) :
    errorKnown p e = true := by
  simpa [errorKnown] using (List.getElem?_eq_some_iff.1 h).1

theorem writeDone_short {r : List Byte} {n : Nat} {s : State} (h : n ≠ s.reqLen.toNat) :
    writeDone r n none s = attemptFail .eShortWrite 0 { s with
      txlog := s.txlog ++ r.take n, hist := s.hist ++ [.writeDone n none], wr := none } :=
  if_pos h

theorem writeDone_full {r : List Byte} {n : Nat} {s : State} (h : n = s.reqLen.toNat) :
    writeDone r n none s = issueRead { s with
      txlog := s.txlog ++ r.take n, hist := s.hist ++ [.writeDone n none], wr := none } :=
  if_neg (not_not.2 h)

/-- Settles O39: the error first, whatever the count is, then the count. -/
theorem writeAnswered : Obligations.WriteAnswered := by
  intro s rest r n e ha hp hw hn u
  have answered (hok : writeAnswerOk s.params r n e = true) :
      step s = .next (writeDone r n e { s with agenda := rest }) :=
    (step_transport ha).trans (congrArg _ (transportStep_writeDone hp hw hok))
  refine ⟨?_, ?_, ?_⟩
  · rintro err w rfl hword
    rw [answered (by simp [writeAnswerOk, hn, errorKnown_of_get hword]), writeDone, xerrWord_of_get hword]
  · rintro rfl hshort
    exact (answered (by simp [writeAnswerOk, hn])).trans (congrArg _ (writeDone_short hshort))
  · rintro rfl hfull
    exact (answered (by simp [writeAnswerOk, hn])).trans (congrArg _ (writeDone_full hfull))

/-- Settles O40: the answers of R22 are those the step accepts. -/
theorem readAnswered : Obligations.ReadAnswered := by
  intro s rest r ha hp hr hanswer
  have hok : readAnswerOk s.params r = true := by
    rcases hanswer with ⟨bs, rfl, hlen⟩ | ⟨e, rfl, he⟩
    · simpa [readAnswerOk] using hlen
    · simpa [readAnswerOk, errorKnown] using he
  exact (step_transport ha).trans (congrArg _ (transportStep_readDone hp hr hok))

/-! ### When a Core turn takes effect (R204) -/

theorem coreEnabled_observe_iff {s : State} :
    coreEnabled .observe s = true ↔ s.phase = .read ∧ ∃ r, s.rd = .completed r := by
  cases hr : s.rd <;> simp [coreEnabled, hr]

theorem coreEnabled_timeout_iff {s : State} :
    coreEnabled .timeout s = true ↔ s.phase = .read ∧ s.latchT.toNat ≤ s.now - s.tArm := by
  simp [coreEnabled, deadlineFired]

theorem coreEnabled_delayEnd_iff {s : State} :
    coreEnabled .delayEnd s = true ↔ s.phase = .delay ∧ s.latchD.toNat ≤ s.now - s.tFail := by
  simp [coreEnabled, delayOver]

theorem step_core {s : State} {c : CoreStep} {rest : List Turn} (h : s.agenda = .core c :: rest) :
    step s = coreStep c { s with agenda := rest } :=
  step_of_agenda h

theorem coreStep_of_enabled {c : CoreStep} {s : State} (h : coreEnabled c s = true) : coreStep c s = coreEffect c s :=
  if_pos h

theorem coreStep_of_disabled {c : CoreStep} {s : State} (h : ¬ coreEnabled c s = true) : coreStep c s = .next s :=
  if_neg h

theorem coreStep_observe {s : State} {r : ReadAnswer} (hp : s.phase = .read) (hr : s.rd = .completed r) :
    coreStep .observe s = .next (observe r s) := by
  rw [coreStep_of_enabled (coreEnabled_observe_iff.2 ⟨hp, r, hr⟩)]
  simp only [coreEffect, hr]

theorem coreStep_timeout {s : State} (hp : s.phase = .read) (hd : s.latchT.toNat ≤ s.now - s.tArm) :
    coreStep .timeout s = .next (timeout s) :=
  coreStep_of_enabled (coreEnabled_timeout_iff.2 ⟨hp, hd⟩)

theorem coreStep_delayEnd {s : State} (hp : s.phase = .delay) (hd : s.latchD.toNat ≤ s.now - s.tFail) :
    coreStep .delayEnd s = .next (beginAttempt s) :=
  coreStep_of_enabled (coreEnabled_delayEnd_iff.2 ⟨hp, hd⟩)

/-! ### X_TIMEOUT and a failed attempt (R191, R193, R195) -/

theorem cancelEvents_eq (rd : ReadReq) : cancelEvents rd = if rd = .pending then [.readCancel] else [] := by
  cases rd <;> rfl

/-- Settles O42: the step is enabled exactly in PHASE = READ with the deadline fired. -/
theorem timeoutEffect : Obligations.TimeoutEffect := by
  intro s rest ha
  refine ⟨fun hp hd => ?_, fun h => ?_⟩
  · rw [← cancelEvents_eq]
    exact (step_core ha).trans (coreStep_timeout hp hd)
  · refine (step_core ha).trans (coreStep_of_disabled fun he => ?_)
    obtain ⟨hp, hd⟩ := coreEnabled_timeout_iff.1 he
    exact h.elim (· hp) (Nat.not_lt.2 hd)

/-- Settles O43: by whether the budget is exhausted. -/
theorem attemptFailureUsesBudget : Obligations.AttemptFailureUsesBudget := fun _ e info he hk =>
  ⟨fun h => ⟨[], Memory.holds_nil, attemptFail_last info he hk h⟩, fun h => attemptFail_retry e info h⟩

/-! ### X_OBSERVE (R187 to R190) -/

/-- The scan stops at the first sentinel or at the first byte that does not fit, whichever comes first. -/
theorem scan_eq {cap : Nat} {acc : List Byte} (bs : List Byte) (h : acc.length ≤ cap) :
    scan cap acc bs =
      if cap < acc.length + (bs.takeWhile (fun b => b != 0)).length then .overflow
      else if bs.takeWhile (fun b => b != 0) = bs then .more (acc ++ bs)
      else .message (acc ++ bs.takeWhile (fun b => b != 0)) := by
  induction bs generalizing acc with
  | nil => simp [scan, h]
  | cons v bs ih =>
    by_cases hv : v = 0
    · simp [scan, hv, h]
    · have hwhile : (v :: bs).takeWhile (fun b => b != 0) = v :: bs.takeWhile (fun b => b != 0) :=
        List.takeWhile_cons_of_pos (by simpa using hv)
      rw [hwhile, scan, if_neg hv]
      by_cases hfull : acc.length = cap
      · rw [if_pos hfull, if_pos (by rw [List.length_cons]; omega)]
      · have hroom : (acc ++ [v]).length ≤ cap := by rw [List.length_append, List.length_singleton]; omega
        rw [if_neg hfull, ih hroom]
        simp only [List.length_append, List.length_cons, List.length_nil, List.append_assoc, List.cons_append,
          List.nil_append, List.cons.injEq, true_and, Nat.add_assoc, Nat.zero_add, Nat.add_comm 1]

theorem deliver_error {m : List Byte} {e : ErrCode} {s : State} (h : frameDecode m = .error e) :
    deliver m s = attemptFail e 0 s := by
  rw [deliver, h]

theorem deliver_ok {m p : List Byte} {s : State} (h : frameDecode m = .ok p) : deliver m s = succeed p s := by
  rw [deliver, h]

theorem issueRead_of_reading {s : State} (h : s.phase = .read) :
    issueRead s = { s with rd := .pending, hist := s.hist ++ [.readReq] } := by
  rw [issueRead, h]

/-- Settles O41: by the kind of the answer, and for a chunk by how its scan ends (`scan_eq`). -/
theorem observeEffect : Obligations.ObserveEffect := by
  intro s rest r ha hp hr u
  have hstep : step s = .next (observe r { s with agenda := rest }) := (step_core ha).trans (coreStep_observe hp hr)
  have chunk {bs : List Byte} (hbs : r = .chunk bs) : step s = .next (takeChunk bs u) := by rw [hstep, hbs]; rfl
  refine ⟨?_, fun h hacc => ?_, fun h hacc => ?_, fun bs h hne => ?_⟩
  · rintro e w rfl hword
    rw [hstep, observe, xerrWord_of_get hword]
  · rw [chunk h, takeChunk, if_pos hacc]
  · rw [chunk h, takeChunk, if_neg hacc]
    exact congrArg _ (issueRead_of_reading hp)
  · intro before
    have hscan (hacc : s.acc.length ≤ s.params.rxCap) := scan_eq bs hacc
    obtain ⟨b, bs, rfl⟩ := List.exists_cons_of_ne_nil hne
    rw [chunk h, takeChunk]
    refine ⟨fun hacc hover => ?_, fun hroom hall => ?_, fun hroom hsome => ⟨fun e he => ?_, fun p hok hcap => ?_⟩⟩
    · rw [hscan hacc, if_pos hover]
    · rw [hscan (by omega), if_neg (Nat.not_lt.2 hroom), if_pos hall]
      exact congrArg _ (issueRead_of_reading hp)
    · rw [hscan (by omega), if_neg (Nat.not_lt.2 hroom), if_neg hsome]
      exact congrArg _ ((deliver_error he).trans (attemptFail_acc e 0 u _))
    · rw [hscan (by omega), if_neg (Nat.not_lt.2 hroom), if_neg hsome]
      have hlen : p.length < 2 ^ 32 := by
        obtain ⟨-, hbound⟩ := payloadBound _ _ hok
        rw [List.length_append] at hbound
        omega
      obtain ⟨m, len, hrec, hl, hm⟩ := succeed_recorded p { u with acc := s.acc ++ before } hlen
      exact ⟨m, len, congrArg _ ((deliver_ok hok).trans hrec), hl, hm⟩

/-! ### What an attempt's end leaves of the request (R192) -/

theorem attemptFail_rd {s : State} (e : ErrCode) (info : Word) (h : s.rd = .none) : (attemptFail e info s).rd = .none := by
  unfold attemptFail
  split
  · rfl
  · exact h

theorem attemptFail_phase_ne {p : Phase} (e : ErrCode) (info : Word) (s : State) (hi : p ≠ .idle) (hd : p ≠ .delay) :
    (attemptFail e info s).phase ≠ p := by
  rw [attemptFail_phase]
  split
  · exact hi.symm
  · exact hd.symm

/-- The errors that end an attempt at an observed answer (R187 to R190). -/
def observeErrors : List ErrCode := frameErrors ++ [.eRead, .eNoData, .eRxOverflow]

/-- An observed answer fails the attempt, completes the exchange, or is followed by the next read. -/
inductive Observed (s : State) : State → Prop where
  | failed (e : ErrCode) (info : Word) (he : e ∈ observeErrors) : Observed s (attemptFail e info { s with rd := .none })
  | delivered (p : List Byte) : Observed s (succeed p { s with rd := .none })
  | readsOn (acc : List Byte) : Observed s (issueRead { s with rd := .none, acc := acc })

theorem deliver_observed (m : List Byte) (s : State) : Observed s (deliver m { s with rd := .none, acc := m }) := by
  rcases frameDecode_result m with ⟨p, hp, -⟩ | ⟨e, he, hp⟩
  · rw [deliver_ok hp]
    exact .delivered p
  · rw [deliver_error hp]
    exact .failed e 0 (List.mem_append_left _ he)

theorem observe_observed (r : ReadAnswer) (s : State) : Observed s (observe r s) := by
  cases r with
  | rdErr e => exact .failed .eRead _ (by decide)
  | chunk bs =>
    cases bs with
    | nil =>
      simp only [observe, takeChunk]
      split
      · exact .failed .eNoData 0 (by decide)
      · exact .readsOn s.acc
    | cons b bs =>
      simp only [observe, takeChunk]
      split
      · exact deliver_observed _ s
      · exact .failed .eRxOverflow 0 (by decide)
      · exact .readsOn _

theorem Observed.rd_ne_completed {s t : State} (h : Observed s t) (r : ReadAnswer) : t.rd ≠ .completed r := by
  cases h with
  | failed e info he => rw [attemptFail_rd e info rfl]; exact nofun
  | delivered p => exact nofun
  | readsOn acc => exact nofun

/-- An attempt that reads on has the deadline it had. -/
theorem Observed.timeoutEnabled {s t : State} (h : Observed s t) (hp : t.phase = .read)
    (hd : s.latchT.toNat ≤ s.now - s.tArm) : coreEnabled .timeout t = true := by
  cases h with
  | failed e info he => exact absurd hp (attemptFail_phase_ne e info _ (by decide) (by decide))
  | delivered p => cases hp
  | readsOn acc => exact coreEnabled_timeout_iff.2 ⟨rfl, hd⟩

/-- Settles O44: both steps are enabled, each withdraws the answer, and reading on leaves the deadline as it was. -/
theorem deadlineRaceBothOrders : Obligations.DeadlineRaceBothOrders := fun s _ r hp hr hd =>
  ⟨fun ha => (step_core ha).trans (coreStep_observe hp hr),
    fun ha => (step_core ha).trans (coreStep_timeout hp hd),
    ⟨attemptFail_rd _ _ rfl, attemptFail_phase_ne _ _ _ (by decide) (by decide)⟩,
    (observe_observed r s).rd_ne_completed,
    fun hread => (observe_observed r s).timeoutEnabled hread hd⟩

end Sys2Proof.Machine
end

section
/-! PROOFS. What every step keeps of an exchange: which step leaves WRITE, READ and DELAY, one request at a time, and one
write request for each attempt. -/

namespace Sys2Proof.Machine

/-! ### While a command runs the host only reads, or resets (R62, R65) -/

theorem HostMove.of_busy {s t : State} {x : HostStep} (m : HostMove s x t) (hb : s.status.busy = true) :
    (x = .reset ∧ t = hostReset s) ∨
      ∃ (d : Nat) (rs : List ReadResult), t = { s with draws := d, reads := s.reads ++ rs } := by
  have idle (h : s.status.busy = false) : False := by rw [hb] at h; cases h
  cases m with
  | reset => exact .inl ⟨rfl, rfl⟩
  | read _ d r hd => exact .inr ⟨d, [r], rfl⟩
  | ignored => exact .inr ⟨s.draws, [], by rw [List.append_nil]⟩
  | command _ h | srcLen _ h | dstLimit _ h | attempts _ h | retryDelay _ h | readTimeout _ h | srcByte _ _ h _ =>
    exact (idle h).elim

/-! ### PHASE = DELAY (R194) -/

/-- Of the other agents' moves only X_DELAY_END leaves the delay. -/
theorem Move.of_delay {s t : State} (m : Move s t) (hp : s.phase = .delay) :
    t.phase = .delay ∨ (delayOver s = true ∧ t = beginAttempt s) := by
  have phase {p : Phase} (hp' : s.phase = p) (hne : p ≠ .delay) :
      t.phase = .delay ∨ (delayOver s = true ∧ t = beginAttempt s) :=
    absurd (hp'.symm.trans hp) hne
  cases m with
  | delayEnd _ hd => exact .inr ⟨hd, rfl⟩
  | tick | plan => exact .inl hp
  | illegal _ hp' | command _ _ hp' | observe _ hp' | timeout hp' | writeDone _ _ _ hp' | readDone _ hp' =>
    exact phase hp' (by decide)

/-- Settles O45: the host can only reset, and the other agents' only way out is X_DELAY_END. -/
theorem delayLeftOnlyWhenOver : Obligations.DelayLeftOnlyWhenOver := by
  intro s hp hb
  refine ⟨fun rest ha hd => (step_core ha).trans (coreStep_delayEnd hp hd), fun t hst hleft => ?_⟩
  rcases step_move s with ⟨x, rest, ha, hx⟩ | ⟨a, d, u, -, hu, m⟩
  · obtain rfl := Host.Outcome.next.inj (hx.symm.trans hst)
    rcases (hostStep_move x { s with agenda := rest }).of_busy hb with ⟨rfl, ht⟩ | ⟨d, rs, ht⟩
    · exact .inl ⟨⟨rest, ha⟩, by rw [ht]; rfl⟩
    · exact absurd (by rw [ht]; exact hp) hleft
  · obtain rfl := Host.Outcome.next.inj (hu.symm.trans hst)
    rcases m.of_delay hp with ht | ⟨hover, rfl⟩
    · exact absurd ht hleft
    · exact .inr ⟨by simpa [delayOver] using hover, rfl, rfl⟩

/-! ### E_TIMEOUT (R203) -/

/-- The attempt that `s` was in has ended with error `e`: the retry delay runs, or the command has completed. -/
def State.AttemptEndedWith (s : State) (e : ErrCode) : Prop :=
  s.phase = .delay ∧ s.lastErr = e ∨ s.phase = .idle ∧ s.status.errcode = e

theorem attemptFail_endedWith {e e' : ErrCode} {info : Word} {s : State}
    (h : (attemptFail e info s).AttemptEndedWith e') : e = e' := by
  unfold attemptFail at h
  split at h
  · obtain ⟨hp, -⟩ | ⟨-, h⟩ := h
    · cases hp
    · exact h
  · obtain ⟨-, h⟩ | ⟨hp, -⟩ := h
    · exact h
    · cases hp

/-- A state still in an attempt has not ended one. -/
theorem State.not_endedWith {s : State} {e : ErrCode} (hd : s.phase ≠ .delay) (hi : s.phase ≠ .idle) :
    ¬ s.AttemptEndedWith e := fun h => h.elim (fun h => hd h.1) (fun h => hi h.1)

theorem Observed.ne_timeout {s t : State} (h : Observed s t) : ¬ t.AttemptEndedWith .eTimeout := by
  cases h with
  | failed e info he =>
    intro h
    obtain rfl := attemptFail_endedWith h
    exact absurd he (by decide)
  | delivered p => exact fun h => h.elim (fun h => nomatch h.1) (fun h => nomatch h.2)
  | readsOn acc => exact State.not_endedWith nofun nofun

/-- Of the other agents' moves only X_TIMEOUT ends an attempt with E_TIMEOUT. -/
theorem Move.of_timeout {s t : State} (m : Move s t) (hp : s.phase = .read) (ht : t.AttemptEndedWith .eTimeout) :
    deadlineFired s = true := by
  have phase {p : Phase} (hp' : s.phase = p) (hne : p ≠ .read) : deadlineFired s = true :=
    absurd (hp'.symm.trans hp) hne
  have reading (h : t.phase = .read) : deadlineFired s = true :=
    absurd ht (State.not_endedWith (by simp [h]) (by simp [h]))
  cases m with
  | timeout _ hd => exact hd
  | observe r _ hr => exact absurd ht (observe_observed r s).ne_timeout
  | readDone | tick | plan => exact reading hp
  | illegal _ hp' | command _ _ hp' | delayEnd hp' | writeDone _ _ _ hp' => exact phase hp' (by decide)

/-- No host step ends an attempt with an error: Reset leaves E_NONE. -/
theorem HostMove.ne_timeout {s t : State} {x : HostStep} (m : HostMove s x t) (hp : s.phase = .read) :
    ¬ t.AttemptEndedWith .eTimeout := by
  cases m with
  | reset => exact fun h => h.elim (fun h => nomatch h.1) (fun h => nomatch h.2)
  | command => exact State.not_endedWith nofun nofun
  | _ => exact State.not_endedWith (by simp [hp]) (by simp [hp])

/-- Settles O46: the step was X_TIMEOUT, which needs a fired deadline. -/
theorem timeoutNotEarly : Obligations.TimeoutNotEarly := by
  intro s t hp hst (ht : t.AttemptEndedWith .eTimeout)
  rcases step_move s with ⟨x, rest, -, hx⟩ | ⟨a, d, u, -, hu, m⟩
  · obtain rfl := Host.Outcome.next.inj (hx.symm.trans hst)
    exact absurd ht ((hostStep_move x { s with agenda := rest }).ne_timeout hp)
  · obtain rfl := Host.Outcome.next.inj (hu.symm.trans hst)
    simpa [deadlineFired] using m.of_timeout hp ht

/-! ### PHASE = WRITE (R200) -/

theorem coreEnabled_of_write {s : State} (hp : s.phase = .write) (c : CoreStep) : coreEnabled c s = false := by
  cases c with
  | observe => cases hr : s.rd <;> simp [coreEnabled, hp, hr]
  | exec | timeout | delayEnd => simp [coreEnabled, hp]

theorem ownMove_of_disabled {s : State} (h : ∀ c, coreEnabled c s = false) : ownMove s = .next (tick s) := by
  simp [ownMove, h]

/-- The wait for the transport's answer to the write goes on in `t` as in `s`. -/
structure State.WriteWaits (s t : State) : Prop where
  phase : t.phase = .write
  wr : t.wr = s.wr
  status : t.status = s.status
  tArm : t.tArm = s.tArm
  now : s.now ≤ t.now

theorem State.WriteWaits.refl {s : State} (hp : s.phase = .write) : s.WriteWaits s :=
  ⟨hp, rfl, rfl, rfl, Nat.le_refl _⟩

theorem ownMove_writeWaits {s t : State} (hp : s.phase = .write) (h : ownMove s = .next t) : s.WriteWaits t := by
  rw [ownMove_of_disabled (coreEnabled_of_write hp)] at h
  obtain rfl := Host.Outcome.next.inj h
  exact { State.WriteWaits.refl hp with now := Nat.le_succ _ }

theorem hostStep_writeWaits {s : State} {x : HostStep} (hp : s.phase = .write) (hb : s.status.busy = true)
    (hx : x ≠ .reset) : s.WriteWaits (hostStep x s) := by
  rcases (hostStep_move x s).of_busy hb with ⟨hr, -⟩ | ⟨d, rs, ht⟩
  · exact absurd hr hx
  · rw [ht]
    exact { State.WriteWaits.refl hp with }

theorem takeTurn_writeWaits {s t : State} {x : Turn} (hp : s.phase = .write) (hb : s.status.busy = true)
    (hw : ∀ n e, x ≠ .transport (.writeDone n e)) (hr : x ≠ .host .reset) (h : takeTurn x s = .next t) :
    s.WriteWaits t := by
  cases x with
  | host y =>
    obtain rfl := Host.Outcome.next.inj h
    exact hostStep_writeWaits hp hb (fun hy => hr (hy ▸ rfl))
  | core c =>
    obtain rfl := Host.Outcome.next.inj ((coreStep_of_disabled (by simp [coreEnabled_of_write hp])).symm.trans h)
    exact .refl hp
  | transport a =>
    obtain rfl := Host.Outcome.next.inj h
    cases a with
    | writeDone n e => exact absurd rfl (hw n e)
    | readDone r =>
      rw [transportStep_readDone_of_ne (by simp [hp])]
      exact .refl hp
  | tick =>
    obtain rfl := Host.Outcome.next.inj h
    exact { State.WriteWaits.refl hp with now := Nat.le_succ _ }
  | own => exact ownMove_writeWaits hp h
  | poll =>
    obtain rfl := Host.Outcome.next.inj h
    unfold pollStep
    split <;> exact { State.WriteWaits.refl hp with }
  | readBack =>
    obtain rfl := Host.Outcome.next.inj h
    unfold readBackStep
    split <;> exact { State.WriteWaits.refl hp with }

/-- Settles O47: no Core step is enabled in WRITE, and of the other turns only the two excepted ones touch the write. -/
theorem writeWaitsForTransport : Obligations.WriteWaitsForTransport := by
  intro s hp hb
  refine ⟨coreEnabled_of_write hp, fun t hst hw hr => ?_⟩
  have hwaits : s.WriteWaits t := by
    cases ha : s.agenda with
    | nil =>
      rw [step, ha] at hst
      exact ownMove_writeWaits hp hst
    | cons x rest =>
      rw [step_of_agenda ha] at hst
      exact { takeTurn_writeWaits (s := { s with agenda := rest }) hp hb (fun n e hx => hw n e rest (hx ▸ ha))
        (fun hx => hr rest (hx ▸ ha)) hst with }
  obtain ⟨hphase, hwr, hstatus, harm, hnow⟩ := hwaits
  exact ⟨hphase, hwr, hstatus, harm, hnow⟩

/-! ### One request at a time (R205) -/

/-- WR is pending in WRITE alone, RD outstanding in READ alone. -/
theorem State.Inv.oneRequest {s : State} (h : s.Inv) : ¬ (s.wr.isSome = true ∧ s.rd ≠ .none) := by
  rintro ⟨hw, hr⟩
  have hwrite := h.port.write.2 hw
  rw [h.port.read.2 hr] at hwrite
  cases hwrite

/-- Settles O57: a step keeps the invariant, which allows one request. -/
theorem oneRequestAtATime : Obligations.OneRequestAtATime := fun s t h hst => (stepKeepsInvariant s t h hst).oneRequest

/-! ### Write requests and attempts (R202) -/

theorem writeCount_append (h k : List PortEvent) : writeCount (h ++ k) = writeCount h + writeCount k :=
  List.countP_append

/-- From `s` to `t` as many write requests were put to the transport as attempts begun. -/
def State.CountsAlike (s t : State) : Prop :=
  writeCount t.hist + s.attemptIdx.toNat = writeCount s.hist + t.attemptIdx.toNat

theorem beginAttempt_countsAlike {s : State} (h : s.attemptIdx.toNat + 1 < 2 ^ 32) : s.CountsAlike (beginAttempt s) := by
  have hidx : (s.attemptIdx + 1).toNat = s.attemptIdx.toNat + 1 := BitVec.toNat_add_of_lt h
  have hone : writeCount [.writeReq s.req] = 1 := rfl
  simp only [State.CountsAlike, beginAttempt_hist, beginAttempt_attemptIdx, writeCount_append, hidx, hone]
  omega

/-- Events other than write requests, and no attempt begun. -/
theorem State.CountsAlike.of_hist {s t : State} {es : List PortEvent} (hh : t.hist = s.hist ++ es)
    (hc : writeCount es = 0) (hi : t.attemptIdx = s.attemptIdx) : s.CountsAlike t := by
  rw [State.CountsAlike, hh, hi, writeCount_append, hc, Nat.add_zero]

theorem attemptFail_countsAlike {s : State} (e : ErrCode) (info : Word) {u : State} (h : u.CountsAlike s) :
    u.CountsAlike (attemptFail e info s) := by
  unfold attemptFail
  split <;> exact h

theorem Observed.countsAlike {s t : State} (h : Observed s t) : s.CountsAlike t := by
  cases h with
  | failed e info he => exact attemptFail_countsAlike e info rfl
  | delivered p => exact rfl
  | readsOn acc => exact .of_hist rfl rfl rfl

theorem writeDone_countsAlike (r : List Byte) (n : Nat) (e : Option TransportError) (s : State) :
    s.CountsAlike (writeDone r n e s) := by
  have hdone : s.CountsAlike { s with
      txlog := s.txlog ++ r.take n, hist := s.hist ++ [.writeDone n e], wr := none } := .of_hist rfl rfl rfl
  cases e with
  | some err => exact attemptFail_countsAlike _ _ hdone
  | none =>
    simp only [writeDone]
    split
    · exact attemptFail_countsAlike _ _ hdone
    · exact .of_hist (List.append_assoc ..) rfl rfl

theorem timeout_countsAlike (s : State) : s.CountsAlike (timeout s) :=
  attemptFail_countsAlike _ _ (.of_hist rfl (by cases s.rd <;> rfl) rfl)

theorem finish_countsAlike (r : Except ErrCode (List Byte)) (s : State) : s.CountsAlike (finish r (afterOperand s)) := by
  cases r <;> rfl

/-- Only EXCHANGE begins an attempt, its first. -/
theorem exec_countsAlike {i : Instr} {s t : State} (hi : s.attemptIdx = 0) (h : exec i s = .next t) : s.CountsAlike t := by
  cases i with
  | encode =>
    simp only [exec, execEncode] at h
    split at h <;> [skip; split at h] <;> cases h <;> rfl
  | checksum | encodeFrame => cases h; rfl
  | decode | decodeFrame => cases h; exact finish_countsAlike ..
  | exchange =>
    simp only [exec, execExchange] at h
    split at h
    · cases h
      exact beginAttempt_countsAlike (s := latchConfig (latchRequest s)) (by simp [hi])
    · cases h
      rfl

theorem Move.countsAlike {s t : State} (m : Move s t) (h : s.Inv) : s.CountsAlike t := by
  cases m with
  | command i t hp hd ht => exact exec_countsAlike (h.attempts.notBegun hp) ht
  | observe r hp hr => exact (observe_observed r s).countsAlike
  | timeout hp hd => exact timeout_countsAlike s
  | delayEnd hp hd =>
    have hleft := h.attempts.budgetLeft hp
    exact beginAttempt_countsAlike (Nat.lt_of_le_of_lt hleft s.latchN.isLt)
  | writeDone r n e hp hw ha => exact writeDone_countsAlike r n e s
  | readDone r hp hr ha => exact .of_hist rfl rfl rfl
  | illegal | tick | plan => rfl

/-- Of the host's steps, only an accepted CMD write and Reset touch the count of attempts. -/
theorem HostMove.countsAlike {s t : State} {x : HostStep} (m : HostMove s x t)
    (hc : ∀ w, x = .regWrite 0x00 w → s.status.busy = true) (hr : x ≠ .reset) : s.CountsAlike t := by
  cases m with
  | command w hb => exact nomatch hb.symm.trans (hc w rfl)
  | reset => exact absurd rfl hr
  | _ => rfl

/-- Settles O51: attempts are begun by X_START and X_DELAY_END alone, each with one write request; the invariant keeps
ATTEMPT_IDX from wrapping there. -/
theorem writeRequestsAreAttempts : Obligations.WriteRequestsAreAttempts := by
  intro s t h hst hc hr
  rcases step_move s with ⟨x, rest, ha, hx⟩ | ⟨a, d, u, -, hu, m⟩
  · obtain rfl := Host.Outcome.next.inj (hx.symm.trans hst)
    exact (hostStep_move x { s with agenda := rest }).countsAlike (fun w hx => hc w rest (hx ▸ ha))
      (fun hx => hr rest (hx ▸ ha))
  · obtain rfl := Host.Outcome.next.inj (hu.symm.trans hst)
    exact m.countsAlike (h.replan a d s.reads)

end Sys2Proof.Machine
end

section
/-! PROOFS. Runs of the read loop of an exchange: a read that is never answered, and a response in chunks. -/

namespace Sys2Proof.Machine

/-! ### A read that is never answered (R191, R201) -/

theorem step_own {s : State} (h : s.agenda = []) : step s = ownMove s := by
  rw [step, h]

section
variable {s : State} (hp : s.phase = .read) (hr : s.rd = .pending)
include hp hr

theorem ownMove_pending_timeout (hd : s.latchT.toNat ≤ s.now - s.tArm) : ownMove s = .next (timeout s) := by
  simp [ownMove, coreEnabled, coreEffect, deadlineFired, hp, hr, hd]

theorem ownMove_pending_tick (hd : s.now - s.tArm < s.latchT.toNat) : ownMove s = .next (tick s) :=
  ownMove_of_disabled fun c => by cases c <;> simp [coreEnabled, deadlineFired, hp, hr, hd]

end

theorem run_pending_timeout {s : State} {k : Nat} (hp : s.phase = .read) (hr : s.rd = .pending) (ha : s.agenda = [])
    (harm : s.tArm ≤ s.now) (hk : s.tArm + s.latchT.toNat - s.now = k) :
    Sys2Proof.core.run (k + 1) s = .next (attemptFail .eTimeout 0 { s with
      now := s.now + k, rd := .none, hist := s.hist ++ [.readCancel] }) := by
  induction k generalizing s with
  | zero =>
    rw [run_succ_of_step ((step_own ha).trans (ownMove_pending_timeout hp hr (by omega))), timeout, hr]
    rfl
  | succ k ih =>
    have hstep : step s = .next (tick s) := (step_own ha).trans (ownMove_pending_tick hp hr (by omega))
    have hrest := ih (s := tick s) hp hr ha (Nat.le_succ_of_le harm) (by rw [tick_now, tick_tArm, tick_latchT]; omega)
    exact (run_succ_of_step hstep (k + 1)).trans (hrest.trans (by simp only [tick, Nat.add_assoc, Nat.add_comm 1]))

/-- Settles O48: by induction on the ticks left to the deadline. -/
theorem unansweredReadTimesOut : Obligations.UnansweredReadTimesOut := fun _ hp hr ha harm =>
  run_pending_timeout hp hr ha harm rfl

/-! ### A response in chunks (R187 to R190, R196, R197) -/

/-- The stuffed frame holds no delimiter (R125). -/
theorem zero_notMem_frameEncode (p : List Byte) : (0 : Byte) ∉ frameEncode p :=
  (stuffedOutputIsBlocks (frameOf p)).1

theorem bne_zero_of_mem {c : List Byte} {b : Byte} (h : (0 : Byte) ∉ c) (hb : b ∈ c) : (b != 0) = true :=
  bne_iff_ne.2 (ne_of_mem_of_not_mem hb h)

theorem takeWhile_eq_self {c : List Byte} (h : (0 : Byte) ∉ c) : c.takeWhile (fun b => b != 0) = c :=
  List.takeWhile_eq_self_iff.2 fun _ => bne_zero_of_mem h

theorem takeWhile_delimited {f : List Byte} (g : List Byte) (h : (0 : Byte) ∉ f) :
    (f ++ 0 :: g).takeWhile (fun b => b != 0) = f := by
  rw [List.takeWhile_append_of_pos fun _ => bne_zero_of_mem h, List.takeWhile_cons_of_neg (by simp), List.append_nil]

/-- The turns that answer a read with each chunk and observe the answer. -/
def chunkTurns (chunks : List (List Byte)) : List Turn :=
  (chunks.map fun c => [Turn.transport (.readDone (.chunk c)), Turn.core .observe]).flatten

/-- The state after the answer `c`, before it is observed. -/
theorem step_readDone_chunk {s : State} {c : List Byte} {rest : List Turn}
    (ha : s.agenda = .transport (.readDone (.chunk c)) :: rest) (hp : s.phase = .read) (hr : s.rd = .pending)
    (hlen : c.length ≤ s.params.rdChunk) :
    step s = .next { s with agenda := rest, rd := .completed (.chunk c), hist := s.hist ++ [.readDone (.chunk c)] } :=
  readAnswered s rest (.chunk c) ha hp hr (.inl ⟨c, rfl, hlen⟩)

/-- A chunk without a delimiter is appended to ACC and read on (R189). -/
theorem run_chunk {s : State} {c : List Byte} {rest : List Turn}
    (ha : s.agenda = .transport (.readDone (.chunk c)) :: .core .observe :: rest) (hp : s.phase = .read)
    (hr : s.rd = .pending) (hc : c ≠ [] ∧ c.length ≤ s.params.rdChunk) (hz : (0 : Byte) ∉ c)
    (hroom : s.acc.length + c.length ≤ s.params.rxCap) (k : Nat) :
    Sys2Proof.core.run (k + 2) s = Sys2Proof.core.run k { s with
      agenda := rest, acc := s.acc ++ c, rd := .pending
      hist := s.hist ++ [.readDone (.chunk c)] ++ [.readReq] } := by
  rw [run_succ_of_step (step_readDone_chunk ha hp hr hc.2)]
  obtain ⟨-, -, -, hchunk⟩ := observeEffect
    { s with agenda := .core .observe :: rest, rd := .completed (.chunk c), hist := s.hist ++ [.readDone (.chunk c)] }
    rest (.chunk c) rfl hp rfl
  obtain ⟨-, hmore, -⟩ := hchunk c rfl hc.1
  rw [takeWhile_eq_self hz] at hmore
  exact run_succ_of_step (hmore hroom rfl) k

/-- A chunk with the delimiter behind the rest `f` of a message that decodes completes with its payload (R190, R196). -/
theorem run_delimiter {s : State} {f g p : List Byte} {rest : List Turn}
    (ha : s.agenda = .transport (.readDone (.chunk (f ++ 0 :: g))) :: .core .observe :: rest) (hp : s.phase = .read)
    (hr : s.rd = .pending) (hlen : (f ++ 0 :: g).length ≤ s.params.rdChunk) (hz : (0 : Byte) ∉ f)
    (hroom : s.acc.length + f.length ≤ s.params.rxCap) (hcap : s.params.rxCap ≤ 2 ^ 32 - 1)
    (hok : frameDecode (s.acc ++ f) = .ok p) :
    ∃ (m : Memory) (len : Word), Sys2Proof.core.run 2 s = .next (State.recorded
        { s with agenda := rest, hist := s.hist ++ [.readDone (.chunk (f ++ 0 :: g))] } s.draws .eNone 0 len m) ∧
      len.toNat = p.length ∧ m.holds p := by
  obtain ⟨-, -, -, hchunk⟩ := observeEffect
    { s with
      agenda := .core .observe :: rest, rd := .completed (.chunk (f ++ 0 :: g))
      hist := s.hist ++ [.readDone (.chunk (f ++ 0 :: g))] }
    rest (.chunk (f ++ 0 :: g)) rfl hp rfl
  obtain ⟨-, -, hmessage⟩ := hchunk _ rfl (by simp)
  rw [takeWhile_delimited g hz] at hmessage
  obtain ⟨-, hdelivers⟩ := hmessage hroom (by simp)
  obtain ⟨m, len, hstep, hl, hm⟩ := hdelivers p hok hcap
  refine ⟨m, len, ?_, hl, hm⟩
  rw [run_succ_of_step (step_readDone_chunk ha hp hr hlen), run_succ_of_step hstep]
  rfl

/-- A read is at the transport, and ACC, the chunks and the last chunk together hold the stuffed frame of `p`, its delimiter in
the last chunk, and any bytes `g`. -/
structure State.Receives (s : State) (p g : List Byte) (chunks : List (List Byte)) (last : List Byte) : Prop where
  phase : s.phase = .read
  rd : s.rd = .pending
  agenda : s.agenda = chunkTurns (chunks ++ [last])
  fits : (frameEncode p).length ≤ s.params.rxCap
  word : s.params.rxCap ≤ 2 ^ 32 - 1
  legal : ∀ c ∈ chunks, c ≠ [] ∧ c.length ≤ s.params.rdChunk
  lastLegal : last.length ≤ s.params.rdChunk
  bytes : s.acc ++ chunks.flatten ++ last = frameEncode p ++ 0 :: g
  delimiterLast : (s.acc ++ chunks.flatten).length ≤ (frameEncode p).length

/-- The last chunk begins with the rest of the frame. -/
theorem State.Receives.frame {s : State} {p g last : List Byte} {chunks : List (List Byte)}
    (h : s.Receives p g chunks last) :
    ∃ f, frameEncode p = s.acc ++ chunks.flatten ++ f ∧ last = f ++ 0 :: g := by
  have hprefix : s.acc ++ chunks.flatten <+: frameEncode p := by
    refine List.prefix_of_prefix_length_le (l₃ := frameEncode p ++ 0 :: g) ?_ (List.prefix_append ..) h.delimiterLast
    rw [← h.bytes]
    exact List.prefix_append ..
  obtain ⟨f, hf⟩ := hprefix
  refine ⟨f, hf.symm, ?_⟩
  have hbytes := h.bytes
  rw [← hf, List.append_assoc _ f] at hbytes
  exact List.append_cancel_left hbytes

/-- The exchange of `s` has completed in `t` with the payload `p`. -/
structure State.Delivered (s t : State) (p : List Byte) : Prop where
  phase : t.phase = .idle
  status : t.status = { busy := false, done := true, err := false, errcode := .eNone }
  xerr : t.xerr = 0
  dstLen : t.dstLen.toNat = p.length
  dst : t.dst.holds p
  attemptIdx : t.attemptIdx = s.attemptIdx
  txlog : t.txlog = s.txlog
  src : t.src = s.src

theorem State.Receives.run {s : State} {p g last : List Byte} {chunks : List (List Byte)}
    (h : s.Receives p g chunks last) :
    ∃ t, Sys2Proof.core.run (2 * (chunks.length + 1)) s = .next t ∧ s.Delivered t p := by
  induction chunks generalizing s with
  | nil =>
    obtain ⟨f, hf, rfl⟩ := h.frame
    rw [List.flatten_nil, List.append_nil] at hf
    have hz := hf ▸ zero_notMem_frameEncode p
    have hfits := hf ▸ h.fits
    rw [List.length_append] at hfits
    obtain ⟨m, len, hrun, hl, hm⟩ := run_delimiter h.agenda h.phase h.rd h.lastLegal
      (fun h0 => hz (List.mem_append_right _ h0)) hfits h.word (hf ▸ frameRoundTrip p)
    exact ⟨_, hrun, rfl, rfl, rfl, hl, hm, rfl, rfl, rfl⟩
  | cons c cs ih =>
    obtain ⟨f, hf, -⟩ := h.frame
    have hz := hf ▸ zero_notMem_frameEncode p
    have hfits := hf ▸ h.fits
    simp only [List.flatten_cons, List.length_append] at hfits
    obtain ⟨hc, hcs⟩ := List.forall_mem_cons.1 h.legal
    have hzc : (0 : Byte) ∉ c := fun h0 =>
      hz (List.mem_append_left _ (List.mem_append_right _ (List.mem_append_left _ h0)))
    rw [List.length_cons, Nat.mul_add, run_chunk h.agenda h.phase h.rd hc hzc (by omega)]
    obtain ⟨t, hrun, ht⟩ := ih (s := { s with
      agenda := chunkTurns (cs ++ [last]), acc := s.acc ++ c, rd := .pending
      hist := s.hist ++ [.readDone (.chunk c)] ++ [.readReq] }) {
        h with
        rd := rfl
        agenda := rfl
        legal := hcs
        bytes := by simpa using h.bytes
        delimiterLast := by simpa [Nat.add_assoc] using h.delimiterLast }
    exact ⟨t, hrun, { ht with }⟩

/-- Settles O49: the answered write puts the first read to the transport, and `State.Receives.run` takes the chunks. -/
theorem exchangeDeliversPayload : Obligations.ExchangeDeliversPayload := by
  intro s r p g last chunks hp hw hreq hacc hfits hcap hchunks hlast hbytes hdelim ha
  obtain ⟨-, -, hfull⟩ := writeAnswered s _ r r.length none ha hp hw (Nat.le_refl _)
  obtain ⟨t, hrun, ht⟩ := State.Receives.run (s := { s with
    agenda := chunkTurns (chunks ++ [last]), txlog := s.txlog ++ r.take r.length, wr := none, rd := .pending
    hist := s.hist ++ [.writeDone r.length none] ++ [.readReq], phase := .read }) {
      phase := rfl
      rd := rfl
      agenda := rfl
      fits := hfits
      word := hcap
      legal := hchunks
      lastLegal := hlast
      bytes := by rw [hacc]; exact hbytes
      delimiterLast := by rw [hacc]; exact hdelim }
  obtain ⟨hphase, hstatus, hxerr, hlen, hdst, hidx, htxlog, hsrc⟩ := ht
  rw [List.take_length] at htxlog
  refine ⟨t, ?_, hphase, hstatus, hxerr, hlen, hdst, hidx, htxlog, hsrc⟩
  rw [Nat.add_comm, run_succ_of_step (hfull rfl hreq)]
  exact hrun

end Sys2Proof.Machine
end

section
/-! PROOFS. A run of an exchange whose writes all fail, through the whole budget of attempts (R184, R193, R195, R202). -/

namespace Sys2Proof.Machine

theorem run_ticks {s : State} {n : Nat} {rest : List Turn} (ha : s.agenda = List.replicate n .tick ++ rest) (k : Nat) :
    Sys2Proof.core.run (k + n) s = Sys2Proof.core.run k { s with agenda := rest, now := s.now + n } := by
  induction n generalizing s with
  | zero =>
    obtain rfl : s.agenda = rest := ha
    rfl
  | succ n ih =>
    have htick : step s = .next (tick { s with agenda := List.replicate n .tick ++ rest }) :=
      step_of_agenda (by rw [ha, List.replicate_succ, List.cons_append])
    rw [← Nat.add_assoc, run_succ_of_step htick, ih rfl]
    simp only [tick, Nat.add_assoc, Nat.add_comm 1]

/-- The turns of an attempt whose write is answered with error `e`, and of a delay of `d` ticks after it. -/
def failingTurns (k e d : Nat) : List Turn :=
  .transport (.writeDone k (some e)) :: (List.replicate d .tick ++ [.core .delayEnd])

/-- In the retry delay that has just started: `d` ticks pass, then X_DELAY_END begins the next attempt. -/
theorem run_delay {s : State} {d : Nat} {rest : List Turn}
    (ha : s.agenda = List.replicate d .tick ++ .core .delayEnd :: rest) (hp : s.phase = .delay)
    (hf : s.tFail = s.now) (hd : s.latchD.toNat = d) (n : Nat) :
    Sys2Proof.core.run (n + 1 + d) s = Sys2Proof.core.run n (beginAttempt { s with agenda := rest, now := s.now + d }) := by
  have hend : step { s with agenda := .core .delayEnd :: rest, now := s.now + d } =
      .next (beginAttempt { s with agenda := rest, now := s.now + d }) :=
    (step_core rfl).trans (coreStep_delayEnd hp (by simp only [hf, hd]; omega))
  exact (run_ticks ha (n + 1)).trans (run_succ_of_step hend n)

/-- In an idle state the same turns only let the time pass. -/
theorem run_delay_idle {s : State} {d : Nat} {rest : List Turn}
    (ha : s.agenda = List.replicate d .tick ++ .core .delayEnd :: rest) (hp : s.phase = .idle) (n : Nat) :
    Sys2Proof.core.run (n + 1 + d) s = Sys2Proof.core.run n { s with agenda := rest, now := s.now + d } := by
  have hend : step { s with agenda := .core .delayEnd :: rest, now := s.now + d } =
      .next { s with agenda := rest, now := s.now + d } :=
    (step_core rfl).trans (coreStep_of_disabled (by simp [coreEnabled, hp]))
  exact (run_ticks ha (n + 1)).trans (run_succ_of_step hend n)

/-- A write of the request is at the transport, which can answer it with `k` bytes and the error `e` of word `w`. -/
structure State.Writes (s : State) (k e : Nat) (w : Word) : Prop where
  phase : s.phase = .write
  wr : s.wr = some s.req
  count : k ≤ s.req.length
  error : s.params.xerr[e]? = some w

theorem State.Writes.step {s : State} {k e : Nat} {w : Word} {rest : List Turn} (h : s.Writes k e w)
    (ha : s.agenda = .transport (.writeDone k (some e)) :: rest) :
    step s = .next (attemptFail .eWrite w { s with
      agenda := rest, txlog := s.txlog ++ s.req.take k, hist := s.hist ++ [.writeDone k (some e)], wr := none }) :=
  (writeAnswered s rest s.req k (some e) ha h.phase h.wr h.count).1 e w rfl h.error

/-- With budget left, the delay is waited out and the next attempt writes the same request. -/
theorem State.Writes.run_retry {s : State} {k e d : Nat} {w : Word} {rest : List Turn} (h : s.Writes k e w)
    (ha : s.agenda = failingTurns k e d ++ rest) (hd : s.latchD.toNat = d) (hleft : s.attemptIdx ≠ s.latchN) :
    ∃ u : State, (∀ n, Sys2Proof.core.run (n + 1 + d + 1) s = Sys2Proof.core.run n u) ∧
      u.Writes k e w ∧ u.agenda = rest ∧ u.latchN = s.latchN ∧ u.latchD.toNat = d ∧
      u.attemptIdx = s.attemptIdx + 1 ∧ writeCount u.hist = writeCount s.hist + 1 := by
  have hstep := (h.step ha).trans (congrArg _ (attemptFail_retry .eWrite w hleft))
  refine ⟨_, fun n => (run_succ_of_step hstep _).trans (run_delay (rest := rest) ?_ ?_ ?_ ?_ n), ?_⟩
  · exact List.append_assoc ..
  · rfl
  · rfl
  · exact hd
  · refine ⟨⟨rfl, rfl, h.count, h.error⟩, rfl, rfl, hd, rfl, ?_⟩
    simp only [beginAttempt_hist, writeCount_append]
    rfl

/-- The exchange has completed with E_WRITE and the word `w` after `n` attempts, with `c` write requests in H. -/
structure State.WriteFailed (t : State) (w n : Word) (c : Nat) : Prop where
  phase : t.phase = .idle
  status : t.status = { busy := false, done := true, err := true, errcode := .eWrite }
  xerr : t.xerr = w
  attemptIdx : t.attemptIdx = n
  count : writeCount t.hist = c

/-- At the end of the budget the write's error completes the command, and the turns of the delay pass. -/
theorem State.Writes.run_last {s : State} {k e d : Nat} {w : Word} (h : s.Writes k e w)
    (ha : s.agenda = failingTurns k e d) (hlast : s.attemptIdx = s.latchN) :
    ∃ t : State, Sys2Proof.core.run (1 + d + 1) s = .next t ∧
      t.WriteFailed w s.latchN (writeCount s.hist) := by
  have hstep := (h.step ha).trans (congrArg _ (attemptFail_last w (by decide) rfl hlast))
  exact ⟨_, (run_succ_of_step hstep _).trans (run_delay_idle rfl rfl 0), rfl, rfl, rfl, hlast,
    writeCount_append s.hist [.writeDone k (some e)]⟩

/-- With `m` more attempts in the budget: each of them writes and fails, and the last ends the command. -/
theorem State.Writes.run_budget {s : State} {k e d m : Nat} {w : Word} (h : s.Writes k e w)
    (ha : s.agenda = (List.replicate (m + 1) (failingTurns k e d)).flatten) (hd : s.latchD.toNat = d)
    (hm : s.attemptIdx.toNat + m = s.latchN.toNat) :
    ∃ t : State, Sys2Proof.core.run ((m + 1) * (d + 2)) s = .next t ∧
      t.WriteFailed w s.latchN (writeCount s.hist + m) := by
  induction m generalizing s with
  | zero =>
    rw [show (0 + 1) * (d + 2) = 1 + d + 1 by omega]
    exact h.run_last (ha.trans (List.append_nil _)) (BitVec.eq_of_toNat_eq hm)
  | succ m ih =>
    have hleft : s.attemptIdx ≠ s.latchN := fun heq => by rw [heq] at hm; omega
    obtain ⟨u, hrun, hu, hagenda, hN, hD, hidx, hcount⟩ := h.run_retry ha hd hleft
    have hidx' : u.attemptIdx.toNat = s.attemptIdx.toNat + 1 := by
      have := s.latchN.isLt
      rw [hidx, BitVec.toNat_add_of_lt] <;> simp; omega
    obtain ⟨t, ht, hfailed⟩ := ih hu hagenda hD (by rw [hN]; omega)
    rw [hN, hcount, Nat.add_assoc, Nat.add_comm 1] at hfailed
    refine ⟨t, ?_, hfailed⟩
    have hsteps : (m + 1 + 1) * (d + 2) = (m + 1) * (d + 2) + 1 + d + 1 := by rw [Nat.succ_mul]; omega
    rw [hsteps, hrun, ht]

/-- Settles O50: X_START puts the first write to the transport with the whole budget ahead (`State.Writes.run_budget`). -/
theorem failingWritesUseWholeBudget : Obligations.FailingWritesUseWholeBudget := by
  intro s k e w hp hc hidx hN hreq hk hw ha
  obtain ⟨m, hm⟩ : ∃ m, s.cfgAttempts.toNat = m + 1 :=
    Nat.exists_eq_succ_of_ne_zero fun h => hN (BitVec.eq_of_toNat_eq h)
  rw [hm] at ha
  have hstart : step s = .next (beginAttempt (latchConfig (latchRequest { s with
      agenda := (List.replicate (m + 1) (failingTurns k e s.cfgRetryDelay.toNat)).flatten }))) :=
    ((stepRunsDecodedCommand s .exchange hp ((decode_eq_ok_iff ..).2 hc)).1 _ ha).trans (exec_exchange_whole hreq)
  obtain ⟨t, hrun, hfailed⟩ := State.Writes.run_budget (m := m)
    (s := beginAttempt (latchConfig (latchRequest { s with
      agenda := (List.replicate (m + 1) (failingTurns k e s.cfgRetryDelay.toNat)).flatten })))
    ⟨rfl, rfl, hk.trans_eq (operand_length s).symm, hw⟩ rfl rfl (by
      change (s.attemptIdx + 1).toNat + m = s.cfgAttempts.toNat
      rw [hidx, hm]
      exact Nat.add_comm ..)
  obtain ⟨hphase, hstatus, hxerr, hlast, hcount⟩ := hfailed
  refine ⟨t, ?_, hphase, hstatus, hxerr, hlast, ?_⟩
  · rw [Nat.add_comm, run_succ_of_step hstart, hm]
    exact hrun
  · rw [hcount, beginAttempt_hist, writeCount_append, hm, Nat.add_assoc, Nat.add_comm m]
    rfl

end Sys2Proof.Machine
end

section
/-! PROOFS. The error codes and the transport's error words (R231 to R233), and that no step is fatal (R230). -/

namespace Sys2Proof.Machine

/-- The codes of R231's table, in its order. -/
def ErrCode.all : List ErrCode :=
  [.eNone, .eIllegalCmd, .eEncDstTooSmall, .eDecSrcTooShort, .eDecDstTooShort, .eDecZeroCode, .eMsgTooShort,
    .eChecksumMismatch, .eMalformedRequest, .eWrite, .eShortWrite, .eNoData, .eTimeout, .eRead, .eRxOverflow]

theorem ErrCode.mem_all (e : ErrCode) : e ∈ ErrCode.all := by cases e <;> decide

/-- No number stands twice in R231's table. -/
theorem ErrCode.code_injective : Function.Injective ErrCode.code := fun e f h =>
  List.inj_on_of_nodup_map (show (ErrCode.all.map ErrCode.code).Nodup by decide) e.mem_all f.mem_all h

/-- Settles O12: the numbers are those of `ErrCode.code`, which is injective, and the nibble is read off code by code. -/
theorem errorCodeNumbers : Obligations.ErrorCodeNumbers := by
  refine ⟨by decide, fun e f h => ErrCode.code_injective h, fun e => ?_⟩
  cases e <;> decide

theorem xerrWord_eq_getElem {p : Params} {e : TransportError} (h : e < p.xerr.length) : xerrWord p e = p.xerr[e] :=
  xerrWord_of_get (List.getElem?_eq_getElem h)

/-- Settles O52: a legal table has no entry twice and no entry 0. -/
theorem transportErrorWordsDistinct : Obligations.TransportErrorWordsDistinct := by
  intro p e f hp he hf
  obtain ⟨-, -, -, -, hnodup, -⟩ := (valid_iff p).1 hp
  refine ⟨xerrWord_ne_zero hp (by simpa [errorKnown] using he), fun h => ?_⟩
  rw [xerrWord_eq_getElem he, xerrWord_eq_getElem hf] at h
  exact hnodup.getElem_inj_iff.1 h

/-- Settles O55: whoever's turn it is, the step is one of the moves of `step_move`. -/
theorem noStepIsFatal : Obligations.NoStepIsFatal := by
  refine ⟨fun s => ?_, exec_next⟩
  rcases step_move s with ⟨x, rest, -, hx⟩ | ⟨a, d, t, -, ht, -⟩
  · exact ⟨_, hx⟩
  · exact ⟨t, ht⟩

end Sys2Proof.Machine
end

section
/-! PROOFS. Which codes each command completes with (R234): a message without a sentinel has no zero code byte, and every step
keeps the completion record possible. -/

namespace Sys2Proof.Machine

/-! ### Unstuffing bytes without a zero (R122) -/

/-- A code byte of zero is a zero among the bytes. -/
theorem unstuff_ne_zeroCode (limit fuel : Nat) (rest out : List Byte) (phantom : Bool) (h : (0 : Byte) ∉ rest) :
    unstuff limit fuel rest out phantom ≠ .error .eDecZeroCode := by
  induction fuel generalizing rest out phantom with
  | zero => rw [unstuff_fuel_zero]; exact nofun
  | succ fuel ih =>
    cases rest with
    | nil => rw [unstuff_nil]; exact nofun
    | cons c rest =>
      have hrest : (0 : Byte) ∉ rest.drop (c.toNat - 1) :=
        fun hz => h (List.mem_cons_of_mem c (List.mem_of_mem_drop hz))
      rcases unstuff_cases limit fuel c rest out phantom with
        ⟨rfl, -⟩ | ⟨-, hu⟩ | ⟨-, -, hu⟩ | ⟨-, -, -, hu⟩ | ⟨-, -, -, hu⟩
      · exact absurd List.mem_cons_self h
      · rw [hu]; exact nofun
      · rw [hu]; exact nofun
      · rw [hu]; exact ih _ _ _ hrest
      · rw [hu]; exact ih _ _ _ hrest

/-- R234: E_DEC_ZERO_CODE is impossible for a message, which has no sentinel in it. -/
theorem frameDecode_ne_zeroCode {m : List Byte} (h : (0 : Byte) ∉ m) : frameDecode m ≠ .error .eDecZeroCode := by
  cases hu : cobsDecode m m.length with
  | error e =>
    rw [frameDecode_of_codecError hu, ← hu]
    exact unstuff_ne_zeroCode m.length m.length m [] false h
  | ok f =>
    rw [frameDecode_of_unstuffed hu]
    exact fun hv => absurd (verifyFrame_error_mem hv) (by decide)

theorem cobsDecode_error_mem {bs : List Byte} {limit : Nat} {e : ErrCode} (h : cobsDecode bs limit = .error e) :
    e ∈ codecErrors := by
  rcases cobsDecode_result bs limit with ⟨r, hr, -⟩ | ⟨e', he, hr⟩
  · exact nomatch hr.symm.trans h
  · exact Except.error.inj (hr.symm.trans h) ▸ he

/-! ### The completion record after each shared operation -/

/-- The record is possible after any change that leaves CMD and STATUS as they were. -/
theorem State.codeOk.of_same {s t : State} (h : s.codeOk) (hs : t.status = s.status) (hc : t.cmd = s.cmd) : t.codeOk := by
  rw [State.codeOk, hs, hc]
  exact h

theorem complete_codeOk {e : ErrCode} {s : State} (info : Word) (he : e ∈ codesOf s.cmd) : (complete e info s).codeOk :=
  fun _ => he

theorem succeed_codeOk {s : State} (out : List Byte) (he : .eNone ∈ codesOf s.cmd) : (succeed out s).codeOk :=
  fun _ => he

theorem finish_codeOk {r : Except ErrCode (List Byte)} {s : State} (hok : .eNone ∈ codesOf s.cmd)
    (herr : ∀ e, r = .error e → e ∈ codesOf s.cmd) : (finish r s).codeOk := by
  cases r with
  | ok out => exact succeed_codeOk out hok
  | error e => exact complete_codeOk 0 (herr e rfl)

/-! ### The commands (R234) -/

/-- Each command completes with a code of its own, and the start of an exchange completes nothing. -/
theorem exec_codeOk {i : Instr} {s t : State} (h : s.codeOk) (hd : decode s.cmd = .ok i) (ht : exec i s = .next t) :
    t.codeOk := by
  have own {e : ErrCode} (he : e ∈ codesOf (encode i)) : e ∈ codesOf s.cmd := eq_encode_of_decode hd ▸ he
  cases i with
  | encode =>
    simp only [exec, execEncode] at ht
    split at ht <;> [skip; split at ht] <;> obtain rfl := Host.Outcome.next.inj ht
    · exact succeed_codeOk _ (own (by decide))
    · exact complete_codeOk 0 (own (by decide))
    · exact succeed_codeOk _ (own (by decide))
  | decode =>
    obtain rfl := Host.Outcome.next.inj ht
    exact finish_codeOk (own (by decide)) fun e he =>
      own ((show codecErrors ⊆ codesOf (encode .decode) by decide) (cobsDecode_error_mem he))
  | checksum | encodeFrame =>
    obtain rfl := Host.Outcome.next.inj ht
    exact succeed_codeOk _ (own (by decide))
  | decodeFrame =>
    obtain rfl := Host.Outcome.next.inj ht
    exact finish_codeOk (own (by decide)) fun e he =>
      own ((show _ ⊆ codesOf (encode .decodeFrame) by decide) (frameDecode_error_mem he))
  | exchange =>
    simp only [exec, execExchange] at ht
    split at ht <;> obtain rfl := Host.Outcome.next.inj ht
    · exact h.of_same rfl rfl
    · exact complete_codeOk 0 (own (by decide))

/-! ### The moves of an exchange -/

section
variable {s : State} (h : s.codeOk) (hc : s.cmd = encode .exchange)
include h hc

/-- A failed attempt completes the exchange with the attempt's own code, or leaves the record alone (R193, R195). -/
theorem attemptFail_codeOk {e : ErrCode} (info : Word) (he : e ∈ codesOf (encode .exchange)) :
    (attemptFail e info s).codeOk := by
  unfold attemptFail
  split
  · exact complete_codeOk info (hc ▸ he)
  · exact h.of_same rfl rfl

theorem writeDone_codeOk (r : List Byte) (n : Nat) (e : Option TransportError) : (writeDone r n e s).codeOk := by
  have ht : State.codeOk { s with txlog := s.txlog ++ r.take n, hist := s.hist ++ [.writeDone n e], wr := none } :=
    h.of_same rfl rfl
  cases e with
  | some err => exact attemptFail_codeOk ht hc _ (by decide)
  | none =>
    simp only [writeDone]
    split
    · exact attemptFail_codeOk ht hc 0 (by decide)
    · exact ht.of_same rfl rfl

/-- Of a frame's errors a message without a zero byte, decoded with room for all of it, leaves three. -/
theorem deliver_codeOk {m : List Byte} (hz : (0 : Byte) ∉ m) : (deliver m s).codeOk := by
  cases hd : frameDecode m with
  | ok p => rw [deliver_ok hd]; exact succeed_codeOk p (hc ▸ by decide)
  | error e =>
    have hne : e ≠ .eDecZeroCode := fun he => frameDecode_ne_zeroCode hz (he ▸ hd)
    have he : e ∈ [.eDecSrcTooShort, .eMsgTooShort, .eChecksumMismatch] :=
      (List.mem_cons.1 (frameDecode_error_mem hd)).resolve_left hne
    rw [deliver_error hd]
    exact attemptFail_codeOk h hc 0 ((show _ ⊆ codesOf (encode .exchange) by decide) he)

theorem takeChunk_codeOk (hz : (0 : Byte) ∉ s.acc) (bs : List Byte) : (takeChunk bs s).codeOk := by
  cases bs with
  | nil =>
    simp only [takeChunk]
    split
    · exact attemptFail_codeOk h hc 0 (by decide)
    · exact h.of_same rfl rfl
  | cons b bs =>
    simp only [takeChunk]
    split
    · rename_i m hm
      obtain ⟨⟨before, after, -, rfl, hbefore⟩, -⟩ := scan_message hm
      exact deliver_codeOk (h.of_same rfl rfl) hc (fun hm => (List.mem_append.1 hm).elim hz hbefore)
    · exact attemptFail_codeOk h hc 0 (by decide)
    · exact h.of_same rfl rfl

theorem observe_codeOk (hz : (0 : Byte) ∉ s.acc) (r : ReadAnswer) : (observe r s).codeOk := by
  have ht : State.codeOk { s with rd := .none } := h.of_same rfl rfl
  cases r with
  | rdErr e => exact attemptFail_codeOk ht hc _ (by decide)
  | chunk bs => exact takeChunk_codeOk ht hc hz bs

theorem timeout_codeOk : (timeout s).codeOk :=
  attemptFail_codeOk (s := { s with rd := .none, hist := s.hist ++ cancelEvents s.rd }) (h.of_same rfl rfl) hc 0
    (by decide)

end

/-! ### Every step -/

/-- The invariant tells which command runs (R47) and that ACC holds no sentinel (R41). -/
theorem Move.codeOk {s t : State} (m : Move s t) (hi : s.Inv) (h : s.codeOk) : t.codeOk := by
  cases m with
  | illegal e hp hd => exact complete_codeOk 0 (by simp [codesOf, hd])
  | command i t hp hd ht => exact exec_codeOk h hd ht
  | observe r hp hr => exact observe_codeOk h (hi.attempts.command (.inr (.inl hp))) hi.port.accZero r
  | timeout hp hd => exact timeout_codeOk h (hi.attempts.command (.inr (.inl hp)))
  | writeDone r n e hp hw ha => exact writeDone_codeOk h (hi.attempts.command (.inl hp)) r n e
  | delayEnd | readDone | tick | plan => exact h.of_same rfl rfl

/-- A CMD write and Reset leave no record; the host's other steps leave CMD and STATUS alone. -/
theorem HostMove.codeOk {s t : State} {x : HostStep} (m : HostMove s x t) (h : s.codeOk) : t.codeOk := by
  cases m with
  | command | reset => exact nofun
  | _ => exact h.of_same rfl rfl

/-- Settles O54: every command ends in a completion with one of its own codes, and every other step keeps the record or
clears it. -/
theorem completionCodesPossible : Obligations.CompletionCodesPossible := by
  intro s t hi h hst
  rcases step_move s with ⟨x, rest, -, hx⟩ | ⟨a, d, u, -, hu, m⟩
  · obtain rfl := Host.Outcome.next.inj (hx.symm.trans hst)
    exact (hostStep_move x _).codeOk (h.of_same rfl rfl)
  · obtain rfl := Host.Outcome.next.inj (hu.symm.trans hst)
    exact m.codeOk (hi.replan a d s.reads) (h.of_same rfl rfl)

end Sys2Proof.Machine
end

section
/-! PROOFS. Reset: what it leaves of the CORE and of the transport's requests, and power-on as a Reset step (R46, R260 to
R262). -/

namespace Sys2Proof.Machine

/-! ### Abandoning the transport (R261) -/

/-- R261 says that the wire may hold any prefix of the request: never more than the request. -/
theorem abandonedCount_le (r : List Byte) (d : Nat) : abandonedCount r d ≤ r.length :=
  Nat.le_of_lt_succ (Nat.mod_lt _ (Nat.succ_pos _))

/-- With no write pending, TXLOG stays and only a pending read leaves an event. -/
theorem abandonTransport_of_wr_none {s : State} (hw : s.wr = none) :
    abandonTransport s = { s with hist := s.hist ++ cancelEvents s.rd } := by
  simp only [abandonTransport, hw, List.append_nil]

/-- A pending write is cut off after a drawn number of bytes. -/
theorem abandonTransport_of_wr_some {s : State} {r : List Byte} (hw : s.wr = some r) :
    abandonTransport s = { s with
      txlog := s.txlog ++ r.take (abandonedCount r s.draws)
      hist := s.hist ++ cancelEvents s.rd ++ [.writeAbandon (abandonedCount r s.draws)]
      draws := s.draws + 1 } := by
  simp only [abandonTransport, hw]

/-- Without a request at the transport there is nothing to abandon. -/
theorem abandonTransport_of_quiet {s : State} (hw : s.wr = none) (hr : s.rd = .none) : abandonTransport s = s := by
  have hc : cancelEvents s.rd = [] := by rw [hr]; rfl
  rw [abandonTransport_of_wr_none hw, hc, List.append_nil]

/-! ### The Reset step -/

theorem hostReset_status_word (s : State) : (hostReset s).status.word = 0 := by
  rw [hostReset_status]
  decide

/-- Settles O1: a quiet transport has nothing to abandon, so Reset gives the values of R46 and changes nothing else. -/
theorem powerOnIsReset : Obligations.PowerOnIsReset := by
  refine ⟨⟨rfl, rfl, rfl⟩, fun s hp hnow htx hh hw hr => ?_⟩
  simp only [hostReset, abandonTransport_of_quiet hw hr, hp, hnow, htx, hh]
  rfl

/-- Settles O2: the CORE's values are those of R46 whatever the state, and TXLOG and H are what abandoning the transport
leaves, by cases on whether a write is pending. -/
theorem resetStepLeavesResetValues : Obligations.ResetStepLeavesResetValues := by
  intro s rest ha
  refine ⟨hostReset { s with agenda := rest }, abandonedCount (s.wr.getD []) s.draws, step_host ha,
    ⟨rfl, hostReset_status_word _, rfl, rfl, rfl, rfl, rfl, rfl, rfl, rfl, rfl⟩, fun _ => ⟨rfl, rfl⟩,
    ⟨rfl, rfl, rfl, rfl, rfl, rfl, rfl, rfl, rfl, rfl, rfl, rfl⟩, ⟨rfl, rfl, rfl, rfl⟩, ?_⟩
  rw [hostReset_txlog, hostReset_hist, ← cancelEvents_eq]
  refine ⟨fun hw => ?_, fun r hw => ?_⟩
  · rw [abandonTransport_of_wr_none (s := { s with agenda := rest }) hw]
    exact ⟨rfl, rfl⟩
  · rw [abandonTransport_of_wr_some (s := { s with agenda := rest }) hw, hw, Option.getD_some]
    exact ⟨abandonedCount_le r s.draws, rfl, rfl⟩

end Sys2Proof.Machine
end
